-- ==== Sys2Proof/Word.lean ====
section
/-! DEFINITION. The words of the part: bytes, registers, host addresses, the blocks of data that a
bus or device transfer carries, and the index types of slots, sets, ways, banks and groups. -/

namespace Sys2Proof

/-- A byte (spec/00_scope.md, Conventions: sizes are in bytes). -/
abbrev Byte := BitVec 8

/-- One register of the window, 32 bits wide (R166). -/
abbrev Word := BitVec 32

/-- A host address, 64 bits wide (spec/00_scope.md, Conventions). -/
abbrev Addr := BitVec 64

/-- Sixty-four bytes of host memory: byte `i` is bits `8 i` to `8 i + 7` (little-endian). -/
abbrev Block64 := BitVec 512

/-- One hundred and twenty-eight bytes (a bucket image, a device transfer, a RAW buffer): byte `i`
is bits `8 i` to `8 i + 7`. -/
abbrev Block128 := BitVec 1024

/-- A key: sixteen bytes, little-endian (R3). -/
abbrev Key := BitVec 128

/-- A slot of the Request Table, 0 to 63 (R78). -/
abbrev SlotId := Fin 64

/-- A set of the Bucket Cache, 0 to 127 (R41). -/
abbrev SetId := Fin 128

/-- A way of a set, 0 to 3 (R41). -/
abbrev Way := Fin 4

/-- A bank of the table memory devices, 0 to 7 (R112). -/
abbrev BankId := Fin 8

/-- A bank group, G0 or G1 (R112). -/
abbrev GroupId := Fin 2

/-- A bucket index (R1). -/
abbrev Bucket := Nat

/-- The `n` bytes of a word from its least significant byte on. -/
def bytesOf {w : Nat} (n : Nat) (x : BitVec w) : List Byte :=
  (List.range n).map fun i => x.extractLsb' (8 * i) 8

/-- `n` zero bytes. -/
def zeroBytes (n : Nat) : List Byte := List.replicate n 0

end Sys2Proof
end

