-- ==== Sys2Proof/Syntax.lean ====
section
/-! DEFINITION. The commands of the engine: one constructor for each row of spec/opcode_table.json,
in the table's order, with the operands the row's event carries. A bus event names the access it ends
by the access's tag (log entry 4); a device write's ALERT_WAIT names the write by its age (R119). -/

namespace Sys2Proof

/-- A command: a register write, the end of a bus access, a report of the devices, the expiry of a
timer, or one of the part's own indivisible steps (spec/95_what_each_step_holds.md). -/
inductive Instr where
  /-- POWER_ON_RESET (R158). -/
  | powerOnReset
  /-- BRINGUP: the full-width write of 1 to CMD (R145). -/
  | bringup
  /-- START: the full-width write of 2 to CMD (R152). -/
  | start
  /-- STOP: the full-width write of 3 to CMD (R160). -/
  | stop
  /-- RESUME: the full-width write of 4 to CMD (R164). -/
  | resume
  /-- ABANDON: the full-width write of 5 to CMD (R162). -/
  | abandon
  /-- RESET: the full-width write of 6 to CMD (R165). -/
  | reset
  /-- ILLEGAL_COMMAND: a full-width write to CMD of a value that names no command (R159, R174). -/
  | illegalCommand (value : Word)
  /-- NUDGE: a write of any width and value to NUDGE (R102, R174). -/
  | nudge (value : Word)
  /-- INTCAUSE_WRITE: value and byte enables (R172, R174). -/
  | intcauseWrite (value : Word) (enables : BitVec 4)
  /-- INTMASK_WRITE: value and byte enables (R172, R174). -/
  | intmaskWrite (value : Word) (enables : BitVec 4)
  /-- REGISTER_WRITE: offset in the window, value and byte enables (R166, R174). -/
  | registerWrite (offset : Nat) (value : Word) (enables : BitVec 4)
  /-- MEMORY_PROFILE_ARRIVAL (R145). -/
  | memoryProfileArrival (tag : Nat) (data : Block64)
  /-- MEMORY_PROFILE_FAULT (R145). -/
  | memoryProfileFault (tag : Nat)
  /-- TABLE_PROFILE_ARRIVAL (R152). -/
  | tableProfileArrival (tag : Nat) (data : Block64)
  /-- TABLE_PROFILE_FAULT (R152). -/
  | tableProfileFault (tag : Nat)
  /-- HEADER_ARRIVAL (R97). -/
  | headerArrival (tag : Nat) (data : Block64)
  /-- TAKEN_WRITE_COMPLETION (R98). -/
  | takenWriteCompletion (tag : Nat)
  /-- RECORD_ARRIVAL (R81). -/
  | recordArrival (tag : Nat) (data : Block64)
  /-- LINK_ARRIVAL (R100). -/
  | linkArrival (tag : Nat) (link : Addr)
  /-- RESULT_WRITE_COMPLETION (R88). -/
  | resultWriteCompletion (tag : Nat)
  /-- RETIREMENT_WRITE_COMPLETION (R104). -/
  | retirementWriteCompletion (tag : Nat)
  /-- RELEASE_WRITE_COMPLETION (R105). -/
  | releaseWriteCompletion (tag : Nat)
  /-- CHAIN_ACCESS_FAULT (R106). -/
  | chainAccessFault (tag : Nat)
  /-- LOAD_COMPLETION: the 128 bytes of a RAW_WRITE's buffer (R86). -/
  | loadCompletion (tag : Nat) (data : Block128)
  /-- STORE_COMPLETION (R87). -/
  | storeCompletion (tag : Nat)
  /-- BUFFER_ACCESS_FAULT (R89). -/
  | bufferAccessFault (tag : Nat)
  /-- STATUS_WRITE_COMPLETION (R171). -/
  | statusWriteCompletion (tag : Nat)
  /-- STATUS_WRITE_FAULT (R170). -/
  | statusWriteFault (tag : Nat)
  /-- READ_DATA_ARRIVAL: matched by issue order, so it names no command (R115). -/
  | readDataArrival (data : Block128)
  /-- WRITE_ALERT: an alert names no write (R137). -/
  | writeAlert
  /-- ALERT_WAIT_EXPIRY of the write whose access has this age (R115). -/
  | alertWaitExpiry (age : Nat)
  /-- OPEN_WAIT_EXPIRY (R117). -/
  | openWaitExpiry (bank : BankId)
  /-- HOLD_MIN_EXPIRY (R117). -/
  | holdMinExpiry (bank : BankId)
  /-- CLOSE_WAIT_EXPIRY (R117). -/
  | closeWaitExpiry (bank : BankId)
  /-- IDLE_CLOSE_EXPIRY (R126). -/
  | idleCloseExpiry (bank : BankId)
  /-- REFRESH_WAIT_EXPIRY (R129). -/
  | refreshWaitExpiry
  /-- REFRESH_PERIOD_EXPIRY (R128). -/
  | refreshPeriodExpiry
  /-- GAP_NEAR_EXPIRY (R118). -/
  | gapNearExpiry (group : GroupId)
  /-- GAP_FAR_EXPIRY (R118). -/
  | gapFarExpiry (group : GroupId)
  /-- TURN_GAP_EXPIRY (R118). -/
  | turnGapExpiry
  /-- RESET_HOLD_EXPIRY (R147). -/
  | resetHoldExpiry
  /-- MODE_GAP_EXPIRY (R147). -/
  | modeGapExpiry
  /-- DEVICE_RESET_PHASE (R147). -/
  | deviceResetPhase
  /-- ARBITER_ISSUE: a moment at which the port is free (R122). -/
  | arbiterIssue
  /-- STEP_EXECUTION at the head of this line's waiter queue (R47). -/
  | stepExecution (set : SetId) (way : Way)
  deriving DecidableEq, Repr

end Sys2Proof
end

