-- ==== Sys2Proof/WellFormed.lean ====
section
/-! DEFINITION. Which command terms spell an event of the part. A term that is not well formed still
has a meaning (the register decode of R174 is total); the checks say which terms the bus can send. -/

namespace Sys2Proof

/-- A value of CMD that names one of the six commands (R174). -/
def namesCommand (v : Word) : Bool := 1 ≤ v.toNat && v.toNat ≤ 6

/-- The operand checks of a command. -/
def Instr.wf : Instr → Bool
  | .illegalCommand v => !namesCommand v
  | .intcauseWrite _ be => be != 0
  | .intmaskWrite _ be => be != 0
  | .registerWrite off _ be => off < 4096 && off % 4 == 0 && be != 0
  | _ => true

end Sys2Proof
end

