-- ==== Sys2Proof/Config.lean ====
section
/-! DEFINITION. What the part fixes once and for all: its sizes and limits, and the bound of the
model's own cascade. The spec leaves no value free that a command computes with, so there is no free
value here: a timer started while no memory profile is held has NO length (`Timer.running none`,
log entry 9) in place of one the model would choose. -/

namespace Sys2Proof.Config

/-- Depth of a bank access queue (R119). -/
def queueDepth : Nat := 16

/-- The overtaken count at which an access may be passed no more (R116, R123). -/
def overtakenLimit : Nat := 8

/-- Batches that may be taken and not yet retired (R98). -/
def openLimit : Nat := 8

/-- Entries of the poison list (R141). -/
def poisonLimit : Nat := 32

/-- The owed count never exceeds this (R128). -/
def owedLimit : Nat := 4

/-- The owed count at which refresh is committed (R129). -/
def owedForced : Nat := 3

/-- Smallest and largest size exponent (R1). -/
def minSize : Nat := 10
/-- Largest size exponent (R1). -/
def maxSize : Nat := 24

/-- How many consequences one event may have before the model stops with `Fault.unsettled`
(DESIGN CHOICE, safe, log entry 3): far more than 64 requests can give rise to. -/
def cascadeBound : Nat := 100000

/-- Bound of one hand-over loop of the clear sweep: one more write than the eight queues of sixteen
places hold (log entry 3). -/
def sweepBound : Nat := 129

end Sys2Proof.Config
end

