-- ==== Sys2Proof/Machine/State.lean ====
section
/-! DEFINITION. The state of the part as plain data, block by block (spec/00_scope.md, Blocks), the
three outcomes' reasons, and the state after power-on reset. -/

namespace Sys2Proof.Machine

/-! ## Timers -/

/-- A timer of the Memory Controller (R117, R118): stopped (never started, or expired), or running
with the number of memory clocks it was started with. `running none` is a timer started while no
memory profile is held: the spec gives it no length (log entry 9). -/
inductive Timer where
  | stopped
  | running (clocks : Option Nat)
  deriving DecidableEq, Repr

/-! ## Bucket images (R3) -/

/-- One slot of a bucket image: a key and a value (R3). -/
structure Entry where
  key : Key
  value : BitVec 64
  deriving DecidableEq, Repr

/-- A bucket image: all 128 bytes, field by field in the order of R3. -/
@[ext] structure Image where
  occupancy : Byte
  spill : Byte
  reserved : BitVec 16
  check : BitVec 32
  slots : Vector Entry 5
  deriving DecidableEq, Repr

/-- One hundred and twenty-eight zero bytes: what a line holds where its image has no meaning
(R42; DESIGN CHOICE, log entry 8). -/
def Image.zero : Image := ⟨0, 0, 0, 0, Vector.replicate 5 ⟨0, 0⟩⟩

/-! ## Requests and their results (R19, R34, R78, R82) -/

/-- The three modes of INSERT (spec/02_table_operations.md, INSERT). -/
inductive InsertMode where
  | add | replace | upsert
  deriving DecidableEq, Repr

/-- The nine request kinds with the flags their kind uses (R82). -/
inductive Kind where
  | lookup
  | insert (mode : InsertMode)
  | delete
  | accumulate (create clamp : Bool)
  | fence
  | flush
  | rawRead
  | rawWrite
  | repair
  deriving DecidableEq, Repr

/-- A record that passed decode (R82). -/
structure Request where
  kind : Kind
  key : Key
  operand : BitVec 64
  deriving DecidableEq, Repr

/-- The result codes a request can end with (spec/11_layouts_and_codes.md, Codes). -/
inductive ResultCode where
  | found | absent | inserted | replaced | exists | deleted | accumulated | clamped | full
  | poisoned | badRequest | done | notListed
  deriving DecidableEq, Repr

/-- The side of an entry (R13). -/
inductive Side where
  | primary | alternate
  deriving DecidableEq, Repr

/-- Where a result's entry lies (R34). -/
structure Location where
  bucket : Bucket
  slot : Fin 5
  side : Side
  deriving DecidableEq, Repr

/-- A final result: code, location and value; no value is written as zero (R34). -/
structure Result where
  code : ResultCode
  location : Option Location
  value : BitVec 64
  deriving DecidableEq, Repr

/-- The three visits of a keyed request; a maintenance request makes the first alone (R18). -/
inductive Visit where
  | one | two | three
  deriving DecidableEq, Repr

/-- The table context of a dispatched request (R19; when it ends: log entry 11). `primary` and `alternate` are absent for
maintenance requests; `reserved` is the reservation, HELD when true. -/
@[ext] structure Context where
  request : Request
  primary : Option Bucket
  alternate : Option Bucket
  visit : Visit
  reserved : Bool
  pendingResult : Option Result
  image : Option Image
  deriving DecidableEq, Repr

/-- How a step ends for its request (R20; `store` is the RAW_READ step of R36, R87). -/
inductive StepEnd where
  | goOn
  | final (r : Result)
  | store
  deriving DecidableEq, Repr

/-- What one step hands back: the line's image, whether it is modifying (R20), the request's context
and the way it ends. -/
structure StepResult where
  image : Image
  modifying : Bool
  context : Context
  ending : StepEnd
  deriving DecidableEq, Repr

/-- The states of a slot: FREE and the nine of R79. -/
inductive SlotState where
  | free | fetching | waitingKey | held | loading | visiting | awaitingWrite | storing | finished
  | reporting
  deriving DecidableEq, Repr

/-- The state of the 128-byte buffer transfer of a RAW_READ or RAW_WRITE (R78, R86, R87, R89). -/
inductive Transfer where
  | none | waiting | outstanding | faulted | done
  deriving DecidableEq, Repr

/-- One slot of the Request Table (R78). `discarded` marks a slot that ABANDON keeps only until its
outstanding read ends (R91). -/
@[ext] structure Slot where
  state : SlotState
  batch : Addr
  index : Nat
  record : Option Block64
  considered : Bool
  request : Option Request
  context : Option Context
  result : Option Result
  transfer : Transfer
  discarded : Bool
  deriving DecidableEq, Repr

/-- A FREE slot (R78, R92). -/
def Slot.empty : Slot :=
  { state := .free, batch := 0, index := 0, record := none, considered := false, request := none,
    context := none, result := none, transfer := .none, discarded := false }

/-! ## Bus Interface -/

/-- What a bus access is for; the block that issued it follows from it. -/
inductive AccessKind where
  | memoryProfileRead
  | tableProfileRead
  | headerRead
  | takenWrite
  | recordRead (slot : SlotId)
  | linkRead
  | resultWrite (slot : SlotId)
  | retirementWrite
  | releaseWrite (batch : Addr)
  | bufferRead (slot : SlotId)
  | bufferWrite (slot : SlotId)
  | statusWrite
  deriving DecidableEq, Repr

/-- A bus-master access: its tag (log entry 4), address, size in bytes, the bytes of a write (none
for a read), and whether the block that issued it still acts on its end (`live`; false after an
engine reset: R92, R111, R165). -/
structure BusAccess where
  tag : Nat
  kind : AccessKind
  addr : Addr
  size : Nat
  data : List Byte
  live : Bool
  deriving DecidableEq, Repr

/-- The Bus Interface: the setup registers (R166) and the outstanding accesses, oldest first. -/
@[ext] structure BusInterface where
  setupL : Word
  setupH : Word
  accesses : List BusAccess
  nextTag : Nat
  deriving DecidableEq, Repr

/-! ## Engine Control (R158) -/

/-- The engine states (R158). -/
inductive EngineState where
  | cold | probing | failed | ready | clearing | running | stopping | stalled
  deriving DecidableEq, Repr

/-- The STOP or ABANDON in progress (R158). -/
inductive Ending where
  | none | stop | abandon
  deriving DecidableEq, Repr

/-- The state a stall returns to (R158). -/
inductive ResumeState where
  | running | stopping
  deriving DecidableEq, Repr

/-- Why bring-up failed (R146). -/
inductive FailureCause where
  | none | bus | profile | lanes | size
  deriving DecidableEq, Repr

/-- Why START was refused (R152). -/
inductive RefusalCause where
  | none | bus | profile | identity
  deriving DecidableEq, Repr

/-- The table identity, when it is set (R17, R157). -/
structure Identity where
  size : Nat
  seed : BitVec 64
  deriving DecidableEq, Repr

/-- The nine counters (R173). -/
@[ext] structure Counters where
  requestsCompleted : BitVec 64
  lookupsFound : BitVec 64
  fills : BitVec 64
  castouts : BitVec 64
  throughWrites : BitVec 64
  poisonings : BitVec 64
  readRetries : BitVec 64
  writeRetries : BitVec 64
  refreshOverruns : BitVec 64
  deriving DecidableEq, Repr

/-- Every counter at zero (R173). -/
def Counters.zero : Counters := ⟨0, 0, 0, 0, 0, 0, 0, 0, 0⟩

/-- The owed mark of the status block: nothing owed; owed and waiting for the next update (R170); or
owed and to be written as soon as R169 allows. -/
inductive Owed where
  | nothing | atNextUpdate | now
  deriving DecidableEq, Repr

/-- The state of status block writing (R169, R171). The causes lie as in INTCAUSE. -/
@[ext] structure StatusUpdate where
  owed : Owed
  waitingCauses : BitVec 5
  attachedCauses : BitVec 5
  outstanding : Option Nat
  stallReportIssued : Bool
  deriving DecidableEq, Repr

/-- Nothing owed, nothing outstanding (R158). -/
def StatusUpdate.idle : StatusUpdate := ⟨.nothing, 0, 0, none, false⟩

/-- The phases of the clear sweep (R154). -/
inductive SweepPhase where
  | idle | discard | writing | draining
  deriving DecidableEq, Repr

/-- The clear sweep (R154). -/
@[ext] structure Sweep where
  phase : SweepPhase
  next : Bucket
  outstanding : Nat
  deriving DecidableEq, Repr

/-- No sweep (R154). -/
def Sweep.idle : Sweep := ⟨.idle, 0, 0⟩

/-- The Engine Control's record (R158), with the reports it holds (R160) and the clear sweep. -/
@[ext] structure EngineControl where
  engine : EngineState
  ending : Ending
  resumeState : ResumeState
  stallHostFault : Bool
  stallBadBatch : Bool
  failureCause : FailureCause
  refusalCause : RefusalCause
  refusedCommand : Option Byte
  statusWriteFault : Bool
  statusAddr : Option Addr
  parkEnable : Bool
  identity : Option Identity
  counters : Counters
  status : StatusUpdate
  intCause : BitVec 5
  intMask : BitVec 5
  lastRetired : Addr
  startRead : Option Nat
  tableEmpty : Bool
  chainClosed : Bool
  sweep : Sweep
  deriving DecidableEq, Repr

/-- The Engine Control after power-on reset (R158). -/
def EngineControl.reset : EngineControl :=
  { engine := .cold, ending := .none, resumeState := .running, stallHostFault := false,
    stallBadBatch := false, failureCause := .none, refusalCause := .none, refusedCommand := none,
    statusWriteFault := false, statusAddr := none, parkEnable := false, identity := none,
    counters := .zero, status := .idle, intCause := 0, intMask := 0, lastRetired := 0,
    startRead := none, tableEmpty := false, chainClosed := false, sweep := .idle }

/-! ## Chain Unit (R96) -/

/-- The fetch phases (R96). -/
inductive FetchPhase where
  | idle | header | taking | records | link | parked | blocked | ended
  deriving DecidableEq, Repr

/-- The anchor (R96): its address and retired mark, and whether its release write has been issued
(the "was not released" of R109). -/
structure Anchor where
  addr : Addr
  retired : Bool
  released : Bool
  deriving DecidableEq, Repr

/-- An entry of the open-batch list (R98). -/
structure OpenBatch where
  addr : Addr
  recordCount : Nat
  notify : Bool
  nextRecord : Nat
  doneCount : Nat
  linkFollowed : Bool
  deriving DecidableEq, Repr

/-- The Chain Unit's record (R96). -/
@[ext] structure ChainUnit where
  phase : FetchPhase
  nextAddr : Option Addr
  chainStart : Addr
  current : Option Addr
  anchor : Option Anchor
  batches : List OpenBatch
  nudgePending : Bool
  parked : Bool
  retireSeq : BitVec 64
  retirementOutstanding : Bool
  releases : List Addr
  releasesWaiting : List Addr
  faulted : List BusAccess
  badBatch : Bool
  given : List SlotId
  deriving DecidableEq, Repr

/-- The Chain Unit after power-on reset (R96, R111). -/
def ChainUnit.reset : ChainUnit :=
  { phase := .idle, nextAddr := none, chainStart := 0, current := none, anchor := none,
    batches := [], nudgePending := false, parked := false, retireSeq := 0,
    retirementOutstanding := false, releases := [], releasesWaiting := [], faulted := [],
    badBatch := false, given := [] }

/-! ## Request Table (R78, R80, R85, R88, R89) -/

/-- The Request Table: the slots, the age list (oldest first), the owner of the fence hold, the
faulted buffer accesses, and the FINISHED slots whose result write has not been issued, in the order
in which they became FINISHED. -/
@[ext] structure RequestTable where
  slots : Vector Slot 64
  age : List SlotId
  hold : Option SlotId
  faulted : List BusAccess
  unreported : List SlotId
  deriving DecidableEq, Repr

/-- The Request Table after power-on and engine reset (R92). -/
def RequestTable.reset : RequestTable :=
  { slots := Vector.replicate 64 Slot.empty, age := [], hold := none, faulted := [],
    unreported := [] }

/-! ## Table Logic (R14) -/

/-- The Table Logic: size exponent and seed (R14). -/
structure TableLogic where
  size : Nat
  seed : BitVec 64
  deriving DecidableEq, Repr

/-! ## Bucket Cache (R41 to R44) -/

/-- The six line states (R43). -/
inductive LineState where
  | free | filling | clean | dirty | writing | rewrite
  deriving DecidableEq, Repr

/-- A line of the cache (R42). -/
@[ext] structure Line where
  state : LineState
  tag : Option Bucket
  image : Image
  waiters : List SlotId
  current : List SlotId
  next : List SlotId
  claim : Option SlotId
  deriving DecidableEq, Repr

/-- A FREE line (R42). -/
def Line.empty : Line :=
  { state := .free, tag := none, image := .zero, waiters := [], current := [], next := [],
    claim := none }

/-- A set: four lines, their order of use from least to most recent, and the set wait list (R44). -/
@[ext] structure CacheSet where
  lines : Vector Line 4
  order : List Way
  waiting : List SlotId
  deriving DecidableEq, Repr

/-- A set after power-on and engine reset (R62). -/
def CacheSet.empty : CacheSet :=
  { lines := Vector.replicate 4 Line.empty, order := [0, 1, 2, 3], waiting := [] }

/-- The write policies (R64). -/
inductive WritePolicy where
  | through | back | adaptive
  deriving DecidableEq, Repr

/-- Why a bucket is poisoned (R141). -/
inductive PoisonReason where
  | read | write
  deriving DecidableEq, Repr

/-- An entry of the poison list (R141). -/
structure PoisonEntry where
  bucket : Bucket
  reason : PoisonReason
  deriving DecidableEq, Repr

/-- The Bucket Cache: sets, write policy, poison list (oldest first), overflow flag, and the FLUSH
request the flush sweep serves (R42, R64, R74, R141). -/
@[ext] structure BucketCache where
  sets : Vector CacheSet 128
  policy : WritePolicy
  poison : List PoisonEntry
  overflow : Bool
  flush : Option SlotId
  deriving DecidableEq, Repr

/-- The Bucket Cache after power-on reset (R62, R64, R142). -/
def BucketCache.reset : BucketCache :=
  { sets := Vector.replicate 128 CacheSet.empty, policy := .back, poison := [], overflow := false,
    flush := none }

/-- What a miss can be given by its set (the cases of R49). -/
inductive LineChoice where
  | allocate (way : Way)
  | castout (way : Way)
  | nothing
  deriving DecidableEq, Repr

/-! ## Memory Controller (R113) -/

/-- The close policies (R125). -/
inductive ClosePolicy where
  | openPage | closeEarly
  deriving DecidableEq, Repr

/-- The memory profile (R145). -/
structure MemoryProfile where
  openWait : Nat
  closeWait : Nat
  holdMin : Nat
  gapNear : Nat
  gapFar : Nat
  turnGap : Nat
  alertWait : Nat
  refreshWait : Nat
  idleClose : Nat
  modeGap : Nat
  refreshPeriod : Nat
  resetHold : Nat
  closePolicy : ClosePolicy
  modeWords : Vector Word 4
  deriving DecidableEq, Repr

/-- The table profile as its 64 bytes give it, before any check (R152). -/
structure TableProfile where
  size : Nat
  policyCode : Nat
  flags : Byte
  seed : BitVec 64
  chainStart : Addr
  statusAddr : Addr
  deriving DecidableEq, Repr

/-- The states of a bank machine (R116). -/
inductive BankState where
  | closed
  | opening (row : Nat)
  | opened (row : Nat)
  | closing
  | refreshing
  deriving DecidableEq, Repr

/-- The place of an access: a bucket, or a bank, row and column named directly (R119, R131). -/
inductive Place where
  | bucket (b : Bucket)
  | direct (bank : BankId) (row col : Nat)
  deriving DecidableEq, Repr

/-- The direction of an access, with the image copy of a write (R119, R68). -/
inductive Direction where
  | read
  | write (image : Image)
  deriving DecidableEq, Repr

/-- Who asked for an access (R119). -/
inductive Requester where
  | line (set : SetId) (way : Way)
  | sweep
  | bringup
  deriving DecidableEq, Repr

/-- An access as it is handed over; in a queue wait it is no more than this (R120). -/
structure Transaction where
  place : Place
  direction : Direction
  requester : Requester
  deriving DecidableEq, Repr

/-- An access in a bank queue (R119). `alert` is the ALERT_WAIT timer of an ISSUED write; `orphan`
marks an access whose end is reported to no one (R132, R146, R151). -/
@[ext] structure Access where
  body : Transaction
  attempt : Nat
  overtaken : Nat
  age : Nat
  issued : Bool
  alert : Timer
  orphan : Bool
  deriving DecidableEq, Repr

/-- A bank: its machine, its four timers and its access queue (R116, R117, R119). -/
@[ext] structure Bank where
  state : BankState
  openWait : Timer
  holdMin : Timer
  closeWait : Timer
  idleClose : Timer
  queue : List Access
  deriving DecidableEq, Repr

/-- A CLOSED bank with an empty queue (R133). -/
def Bank.empty : Bank :=
  { state := .closed, openWait := .stopped, holdMin := .stopped, closeWait := .stopped,
    idleClose := .stopped, queue := [] }

/-- A read whose data has not arrived: a bucket or bring-up read of a bank's queue, by age, or a
PATTERN_READ, with whether its data still matters (R115, R151). -/
inductive OutstandingRead where
  | access (bank : BankId) (age : Nat)
  | pattern (index : Nat) (orphan : Bool)
  deriving DecidableEq, Repr

/-- The device commands (R114). -/
inductive DeviceCommand where
  | openRow (bank : BankId) (row : Nat)
  | close (bank : BankId)
  | closeAll
  | read (bank : BankId) (col : Nat)
  | write (bank : BankId) (col : Nat) (data : Image)
  | readClose (bank : BankId) (col : Nat)
  | writeClose (bank : BankId) (col : Nat) (data : Image)
  | refresh
  | modeSet (index : Nat) (value : Word)
  | patternRead (index : Nat)
  deriving DecidableEq, Repr

/-- The four marker images of the size probe (R149). -/
inductive Marker where
  | m14 | m13 | m12 | m0
  deriving DecidableEq, Repr

/-- The bring-up sequencer (R145 to R150): `mode i` waits for the MODE_GAP after which MODE_SET(i)
issues, or, for 4, the lane check begins; `lanes i` waits for the data of PATTERN_READ(i);
`probe i found` waits for the end of the size probe's access `i`, with the read results so far. -/
inductive SequencerPhase where
  | idle
  | profile (tag : Nat)
  | awaitingReset
  | resetHold
  | mode (next : Nat)
  | lanes (index : Nat)
  | probe (index : Nat) (found : List (Option Marker))
  deriving DecidableEq, Repr

/-- The Memory Controller (R113), its arbiter's record and the bring-up sequencer. `accepting` is
false from an engine reset until its drain has ended (R132). -/
@[ext] structure MemoryController where
  profile : Option MemoryProfile
  rows : Option Nat
  laneFaults : Byte
  banks : Vector Bank 8
  idleCandidates : List BankId
  waits : List Transaction
  nextAge : Nat
  reads : List OutstandingRead
  near : Vector Timer 2
  far : Vector Timer 2
  turnGap : Timer
  refreshWait : Timer
  refreshPeriod : Timer
  refreshRunning : Bool
  owed : Nat
  committed : Bool
  accepting : Bool
  sequencer : SequencerPhase
  resetHeld : Bool
  resetHold : Timer
  modeGap : Timer
  port : Option DeviceCommand
  deriving DecidableEq, Repr

/-- The Memory Controller after power-on reset (R113, R133). -/
def MemoryController.reset : MemoryController :=
  { profile := none, rows := none, laneFaults := 0, banks := Vector.replicate 8 Bank.empty,
    idleCandidates := [], waits := [], nextAge := 0, reads := [],
    near := Vector.replicate 2 .stopped, far := Vector.replicate 2 .stopped, turnGap := .stopped,
    refreshWait := .stopped, refreshPeriod := .stopped, refreshRunning := false, owed := 0,
    committed := false, accepting := true, sequencer := .idle, resetHeld := false,
    resetHold := .stopped, modeGap := .stopped, port := none }

/-! ## Consequences within one event -/

/-- A consequence of an event that another block still has to take in the same event. -/
inductive Task where
  /-- A visit of the request arrives at the cache (R45, R59). -/
  | arrive (k : SlotId)
  /-- The request's visit is refused (R21, R60). -/
  | refuse (k : SlotId)
  /-- The request becomes finished with this result (R79, R84, R85, R88). -/
  | finish (k : SlotId) (r : Result)
  /-- The request is dispatched (R84, R85). -/
  | dispatch (k : SlotId)
  /-- Consideration resumes (R81). -/
  | consider
  /-- The owner of the fence hold is looked at (R85). -/
  | owner
  /-- A set wait list retries (R55, R56). -/
  | retry (set : SetId)
  /-- A former claimant chooses again (R58). -/
  | rechoose (k : SlotId)
  /-- The flush sweep re-examines the cache (R75). -/
  | flushCheck
  /-- The write of this line has failed past its retries (R137, R139). -/
  | lineLost (set : SetId) (way : Way)
  /-- The request leaves the current-write list of this line, whose write has completed (R70, R71). -/
  | leaveList (set : SetId) (way : Way) (k : SlotId)
  /-- This REWRITE line, its current-write list released, looks at its next-write list (R71). -/
  | lookNext (set : SetId) (way : Way)
  deriving DecidableEq, Repr

/-! ## The state, and why a step can stop -/

/-- The whole part, block by block, and the queue of commands that wait, first in first out. -/
@[ext]
structure State where
  bi : BusInterface
  ec : EngineControl
  cu : ChainUnit
  rt : RequestTable
  tl : TableLogic
  bc : BucketCache
  mc : MemoryController
  pending : List Instr
  deriving DecidableEq, Repr

/-- Why a step stops. The spec describes nothing that stops the part; this reason is the model's. -/
inductive Fault where
  /-- Raised by a command whose consequences, taken one by one, number more than
  `Config.cascadeBound`: the model stops in place of dropping any. Safe (log entry 3). -/
  | unsettled
  deriving DecidableEq, Repr

/-- Commands without a meaning. -/
inductive Refusal where
  /-- The command of this mnemonic is not modelled (raised by `exec` alone; safe). -/
  | notModelled (mnemonic : String)
  deriving DecidableEq, Repr

/-- The part right after power-on reset (R14, R62, R92, R111, R133, R158, R166). Values no rule
gives are named in log entry 8. -/
def State.reset : State :=
  { bi := { setupL := 0, setupH := 0, accesses := [], nextTag := 0 },
    ec := .reset, cu := .reset, rt := .reset, tl := { size := 10, seed := 0 }, bc := .reset,
    mc := .reset, pending := [] }

end Sys2Proof.Machine
end

