-- ==== Sys2Proof/Machine/Image.lean ====
section
/-! DEFINITION. Bucket images (spec/01_the_keyed_table.md): fields, search, placement, spill count,
normal form, check word (spec/08_check_codes_and_media_faults.md), and the hash. -/

namespace Sys2Proof.Machine

/-! ## Bytes of an image (R3; spec/11_layouts_and_codes.md, Bucket image) -/

/-- The entry of slot `k` in 128 bytes: key at `8 + 24 k`, value at `24 + 24 k`. -/
def Entry.ofBits (d : Block128) (k : Nat) : Entry :=
  ⟨d.extractLsb' (8 * (8 + 24 * k)) 128, d.extractLsb' (8 * (24 + 24 * k)) 64⟩

/-- The image that 128 bytes spell. -/
def Image.ofBits (d : Block128) : Image :=
  { occupancy := d.extractLsb' 0 8, spill := d.extractLsb' 8 8, reserved := d.extractLsb' 16 16,
    check := d.extractLsb' 32 32,
    slots := #v[Entry.ofBits d 0, Entry.ofBits d 1, Entry.ofBits d 2, Entry.ofBits d 3,
      Entry.ofBits d 4] }

/-- The 24 bytes of a slot. -/
def Entry.bytes (e : Entry) : List Byte := bytesOf 16 e.key ++ bytesOf 8 e.value

/-- The 120 slot bytes in image order. -/
def Image.slotBytes (im : Image) : List Byte :=
  im.slots[0].bytes ++ im.slots[1].bytes ++ im.slots[2].bytes ++ im.slots[3].bytes
    ++ im.slots[4].bytes

/-- The 124 bytes the check word covers: the first four and the 120 slot bytes (R6). -/
def Image.coveredBytes (im : Image) : List Byte :=
  [im.occupancy, im.spill] ++ bytesOf 2 im.reserved ++ im.slotBytes

/-- All 128 bytes in order (R3). -/
def Image.bytes (im : Image) : List Byte :=
  [im.occupancy, im.spill] ++ bytesOf 2 im.reserved ++ bytesOf 4 im.check ++ im.slotBytes

/-! ## The check word (R6, R134) -/

/-- The Castagnoli polynomial (R134). -/
def crcPolynomial : BitVec 32 := 0x1EDC6F41#32

/-- Its bits in reverse order, as the right-shifting register takes them (`crcPolynomial.reverse`). -/
def crcReversed : BitVec 32 := 0x82F63B78#32

/-- The shift register after a string of bits: each bit that enters meets the bit that leaves, and the
polynomial is added where they differ. Bits enter least significant first, so the register shifts
right and the polynomial stands reversed (R134). -/
def crcBits (reg : BitVec 32) : List Bool → BitVec 32
  | [] => reg
  | b :: bs =>
    if (reg.getLsbD 0 != b) = true then crcBits ((reg >>> 1) ^^^ crcReversed) bs
    else crcBits (reg >>> 1) bs

/-- The bits of a byte, least significant first. -/
def bitsOf (b : Byte) : List Bool := (List.range 8).map b.getLsbD

/-- CRC-32 of a byte string: register starts at FFFFFFFFh, the result is inverted (R134). -/
def crc32 (bs : List Byte) : BitVec 32 := ~~~(crcBits 0xFFFFFFFF#32 (bs.flatMap bitsOf))

/-- The check word of an image, over the bytes R6 names. -/
def Image.checkWord (im : Image) : BitVec 32 := crc32 im.coveredBytes

/-- The image with its computed check word in place (R6). -/
def Image.sealed (im : Image) : Image := { im with check := im.checkWord }

/-- Whether an image passes its check (R135). -/
def Image.valid (im : Image) : Bool := im.check == im.checkWord

/-! ## Slots (R4, R8, R9) -/

/-- Slots 0 to 4, in the order a search examines them (R8). -/
def slotOrder : List (Fin 5) := [0, 1, 2, 3, 4]

/-- Whether slot `k` is occupied: by its flag alone (R4). -/
def Image.occupied (im : Image) (k : Fin 5) : Bool := im.occupancy.getLsbD k

/-- The lowest-numbered occupied slot whose key equals the sought key (R8). -/
def Image.search (im : Image) (key : Key) : Option (Fin 5) :=
  slotOrder.find? fun k => im.occupied k && im.slots[k].key == key

/-- The lowest-numbered free slot (R9). -/
def Image.freeSlot (im : Image) : Option (Fin 5) := slotOrder.find? fun k => !im.occupied k

/-- Places an entry in slot `k` (R9). -/
def Image.place (im : Image) (k : Fin 5) (key : Key) (value : BitVec 64) : Image :=
  { im with
    occupancy := im.occupancy ||| (1#8 <<< k.val), slots := im.slots.set k ⟨key, value⟩ }

/-- Removes the entry of slot `k`: clears its flag and zeroes its 24 bytes (R5, R9). -/
def Image.remove (im : Image) (k : Fin 5) : Image :=
  { im with
    occupancy := im.occupancy &&& ~~~(1#8 <<< k.val), slots := im.slots.set k ⟨0, 0⟩ }

/-- Overwrites the value of slot `k` and nothing else (R24, R30). -/
def Image.overwrite (im : Image) (k : Fin 5) (value : BitVec 64) : Image :=
  { im with slots := im.slots.set k ⟨im.slots[k].key, value⟩ }

/-- One more reservation on the bucket; the count never rises above 255 (R15). -/
def Image.reserve (im : Image) : Image :=
  { im with spill := if im.spill = 255 then 255 else im.spill + 1 }

/-- One count less; a count of 0 stays 0 (R15). -/
def Image.release (im : Image) : Image :=
  { im with spill := if im.spill = 0 then 0 else im.spill - 1 }

/-! ## Whole images (R5, R7, R149) -/

/-- The empty bucket (R7). -/
def Image.blank : Image := Image.zero.sealed

/-- The repaired bucket: the empty bucket with spill count 255 (R7). -/
def Image.repaired : Image := Image.sealed { Image.zero with spill := 255 }

/-- An entry in normal form: a free slot's bytes are zero (R5). -/
def Image.normalEntry (im : Image) (k : Fin 5) : Entry :=
  if im.occupied k then im.slots[k] else ⟨0, 0⟩

/-- Normal form with a new check word: unused occupancy flags, reserved bytes and free slots are
zero (R5, R86). -/
def Image.normalForm (im : Image) : Image :=
  Image.sealed
    { occupancy := im.occupancy &&& 0x1F#8, spill := im.spill, reserved := 0, check := 0,
      slots := #v[im.normalEntry 0, im.normalEntry 1, im.normalEntry 2, im.normalEntry 3,
        im.normalEntry 4] }

/-- Byte 0 of a marker's key (R149). -/
def Marker.number : Marker → Nat
  | .m14 => 15
  | .m13 => 14
  | .m12 => 13
  | .m0 => 1

/-- A marker image as the size probe hands it over (R149). -/
def Marker.image (m : Marker) : Image := Image.zero.place 0 (BitVec.ofNat 128 m.number) 0

/-- The marker an arrival equals in full, check word included (R149). -/
def Marker.ofImage (im : Image) : Option Marker :=
  [Marker.m14, .m13, .m12, .m0].find? fun m => im == m.image.sealed

/-! ## The hash (R10 to R12) -/

/-- The fold of a key: its two halves and the seed, exclusive-or (R10). -/
def foldKey (seed : BitVec 64) (key : Key) : BitVec 64 :=
  key.extractLsb' 0 64 ^^^ key.extractLsb' 64 64 ^^^ seed

/-- The top `size` bits of a 64-bit word (R11). -/
def topBits (size : Nat) (x : BitVec 64) : Bucket := (x >>> (64 - size)).toNat

/-- The primary bucket (R11). -/
def primaryBucket (size : Nat) (seed : BitVec 64) (key : Key) : Bucket :=
  topBits size (foldKey seed key * 0xD6E8FEB86659FD93#64)

/-- The alternate bucket: the top bits of the second product, replaced by P XOR 1 where they equal
the primary (R12). -/
def alternateBucket (size : Nat) (seed : BitVec 64) (key : Key) : Bucket :=
  let a := topBits size ((foldKey seed key).rotateLeft 32 * 0xA0761D6478BD642F#64)
  if a = primaryBucket size seed key then a ^^^ 1 else a

end Sys2Proof.Machine
end

