-- ==== Sys2Proof/Machine/Operands.lean ====
section
/-! DEFINITION. The structures the host builds and the bytes the engine writes
(spec/11_layouts_and_codes.md): setup block, batch header, request record, and the codes. Byte `i`
of a block is bits `8 i` to `8 i + 7`. -/

namespace Sys2Proof.Machine

/-- The `n`-byte field at byte offset `off`, as an unsigned number (R175). -/
def field (d : Block64) (off n : Nat) : Nat := (d.extractLsb' (8 * off) (8 * n)).toNat

/-- Whether an address is a multiple of 64. -/
def aligned64 (a : Addr) : Bool := a.toNat % 64 == 0

/-! ## Setup block: the memory profile (R145) -/

/-- The close policy codes (R175). -/
def closePolicyOf : Nat → Option ClosePolicy
  | 0 => some .openPage
  | 1 => some .closeEarly
  | _ => none

/-- Whether a number lies in a range, both ends included. -/
def inRange (lo hi x : Nat) : Bool := lo ≤ x && x ≤ hi

/-- The checks of R145 on every interval and the reset hold. -/
def MemoryProfile.inRanges (p : MemoryProfile) : Bool :=
  inRange 1 255 p.openWait && inRange 1 255 p.closeWait && inRange 1 255 p.holdMin
    && inRange 1 255 p.gapNear && inRange 1 255 p.gapFar && inRange 1 255 p.turnGap
    && inRange 1 255 p.alertWait && inRange 1 255 p.refreshWait && inRange 1 255 p.idleClose
    && inRange 1 255 p.modeGap && inRange 256 65535 p.refreshPeriod
    && inRange 256 65535 p.resetHold

/-- The fields of the memory profile under one close policy. -/
def memoryProfileFields (d : Block64) (policy : ClosePolicy) : MemoryProfile :=
  { openWait := field d 0 1, closeWait := field d 1 1, holdMin := field d 2 1,
    gapNear := field d 3 1, gapFar := field d 4 1, turnGap := field d 5 1,
    alertWait := field d 6 1, refreshWait := field d 7 1, idleClose := field d 8 1,
    modeGap := field d 9 1, refreshPeriod := field d 10 2, resetHold := field d 12 2,
    closePolicy := policy,
    modeWords := #v[d.extractLsb' 128 32, d.extractLsb' 160 32, d.extractLsb' 192 32,
      d.extractLsb' 224 32] }

/-- The memory profile that 64 bytes give, if every checked field lies in its range (R145). -/
def decodeMemoryProfile (d : Block64) : Option MemoryProfile :=
  (closePolicyOf (field d 14 1)).bind fun policy =>
    let p := memoryProfileFields d policy
    if p.inRanges then some p else none

/-! ## Setup block: the table profile (R152) -/

/-- The table profile's fields; offsets count from byte 64 of the setup block. -/
def decodeTableProfile (d : Block64) : TableProfile :=
  { size := field d 0 1, policyCode := field d 1 1, flags := d.extractLsb' 16 8,
    seed := d.extractLsb' 64 64, chainStart := d.extractLsb' 128 64,
    statusAddr := d.extractLsb' 192 64 }

/-- The write policy codes (R175). -/
def writePolicyOf : Nat → Option WritePolicy
  | 0 => some .through
  | 1 => some .back
  | 2 => some .adaptive
  | _ => none

/-- The clear flag (bit 0). -/
def TableProfile.clear (p : TableProfile) : Bool := p.flags.getLsbD 0

/-- The PARK enable (bit 1). -/
def TableProfile.parkEnable (p : TableProfile) : Bool := p.flags.getLsbD 1

/-- The checks of R152 that refuse with PROFILE, given the detected row count: size, policy code,
addresses and unassigned flags. -/
def TableProfile.wellFormed (p : TableProfile) (rows : Option Nat) : Bool :=
  inRange Config.minSize Config.maxSize p.size
    && 2 ^ p.size * 128 ≤ 8 * rows.getD 0 * 8192
    && (writePolicyOf p.policyCode).isSome
    && p.chainStart != 0 && aligned64 p.chainStart
    && p.statusAddr != 0 && aligned64 p.statusAddr
    && (p.flags >>> 2) == 0

/-- The identity a profile asks for. -/
def TableProfile.identity (p : TableProfile) : Identity := ⟨p.size, p.seed⟩

/-! ## Batch header (R94) -/

/-- The record count of a header. -/
def headerCount (d : Block64) : Nat := field d 8 2

/-- The NOTIFY flag of a header. -/
def headerNotify (d : Block64) : Bool := d.getLsbD 80

/-- The state byte of a header. -/
def headerState (d : Block64) : Nat := field d 26 1

/-- The checks of R97: state READY and a record count from 1 to 1024. -/
def headerAccepted (d : Block64) : Bool := headerState d == 1 && inRange 1 1024 (headerCount d)

/-! ## Request record (R82, R175) -/

/-- The kind byte of a record. -/
def recordKind (d : Block64) : Nat := field d 0 1

/-- The flags byte of a record. -/
def recordFlags (d : Block64) : Byte := d.extractLsb' 8 8

/-- The key of a record. -/
def recordKey (d : Block64) : Key := d.extractLsb' 64 128

/-- The operand of a record. -/
def recordOperand (d : Block64) : BitVec 64 := d.extractLsb' 192 64

/-- The insert modes; 3 names none (R82). -/
def insertModeOf : Nat → Option InsertMode
  | 0 => some .add
  | 1 => some .replace
  | 2 => some .upsert
  | _ => none

/-- The kind a record's kind code and flags give, if the code is assigned (R82, R175). -/
def kindOf (code : Nat) (flags : Byte) : Option Kind :=
  match code with
  | 1 => some .lookup
  | 2 => (insertModeOf (flags.extractLsb' 0 2).toNat).map .insert
  | 3 => some .delete
  | 4 => some (.accumulate (flags.getLsbD 2) (flags.getLsbD 3))
  | 5 => some .fence
  | 6 => some .flush
  | 7 => some .rawRead
  | 8 => some .rawWrite
  | 9 => some .repair
  | _ => none

/-- The bucket index a maintenance request carries (R82). -/
def Request.bucket (r : Request) : Bucket :=
  match r.kind with
  | .repair => r.operand.toNat
  | _ => (r.key.extractLsb' 0 64).toNat

/-- The checks of R82 on bucket index and buffer address. -/
def Request.operandsPass (r : Request) (size : Nat) : Bool :=
  match r.kind with
  | .rawRead | .rawWrite => r.bucket < 2 ^ size && aligned64 r.operand
  | .repair => r.bucket < 2 ^ size
  | _ => true

/-- Decode of a record under size exponent `size`; `none` is BAD_REQUEST (R82, R175). -/
def decodeRecord (size : Nat) (d : Block64) : Option Request :=
  if recordFlags d >>> 4 != 0 then none
  else
    (kindOf (recordKind d) (recordFlags d)).bind fun kind =>
      let r : Request := ⟨kind, recordKey d, recordOperand d⟩
      if r.operandsPass size then some r else none

/-- Whether a request is keyed (spec/00_scope.md, Terms). -/
def Kind.keyed : Kind → Bool
  | .lookup | .insert _ | .delete | .accumulate _ _ => true
  | .fence | .flush | .rawRead | .rawWrite | .repair => false

/-- Whether a request replaces a whole image without a fill (R59). -/
def Kind.replacesImage : Kind → Bool
  | .rawWrite | .repair => true
  | _ => false

/-! ## Codes and bytes the engine writes -/

/-- The engine state codes. -/
def EngineState.code : EngineState → Nat
  | .cold => 0
  | .probing => 1
  | .failed => 2
  | .ready => 3
  | .clearing => 4
  | .running => 5
  | .stopping => 6
  | .stalled => 7

/-- The failure cause codes. -/
def FailureCause.code : FailureCause → Nat
  | .none => 0
  | .bus => 1
  | .profile => 2
  | .lanes => 3
  | .size => 4

/-- The refusal cause codes. -/
def RefusalCause.code : RefusalCause → Nat
  | .none => 0
  | .bus => 1
  | .profile => 2
  | .identity => 3

/-- The result codes; PENDING, which is 0, is the host's alone. -/
def ResultCode.code : ResultCode → Nat
  | .found => 1
  | .absent => 2
  | .inserted => 3
  | .replaced => 4
  | .exists => 5
  | .deleted => 6
  | .accumulated => 7
  | .clamped => 8
  | .full => 9
  | .poisoned => 10
  | .badRequest => 11
  | .done => 12
  | .notListed => 13

/-- The side codes. -/
def Side.code : Side → Nat
  | .primary => 0
  | .alternate => 1

/-- The poison reason codes. -/
def PoisonReason.code : PoisonReason → Nat
  | .read => 1
  | .write => 2

/-- The `n` bytes of a number, least significant first. -/
def numberBytes (n x : Nat) : List Byte := bytesOf n (BitVec.ofNat (8 * n) x)

/-- Bytes 42 to 47 of a record: result slot, side and bucket; all zero without a location (R34). -/
def locationBytes : Option Location → List Byte
  | some l => numberBytes 1 l.slot.val ++ numberBytes 1 l.side.code ++ numberBytes 4 l.bucket
  | none => zeroBytes 6

/-- Bytes 40 to 55 of a record, in one write (R88). -/
def resultBytes (r : Result) : List Byte :=
  numberBytes 2 r.code.code ++ locationBytes r.location ++ bytesOf 8 r.value

/-- The state byte of the TAKEN write (R98). -/
def takenBytes : List Byte := [2]

/-- The state byte of the release write (R105). -/
def releasedBytes : List Byte := [4]

/-- Bytes 16 to 26 of a header: retire_seq, done_count and the state RETIRED (R103). -/
def retirementBytes (seq : BitVec 64) (done : Nat) : List Byte :=
  bytesOf 8 seq ++ numberBytes 2 done ++ [3]

/-- A result with no location and no value (R34). -/
def Result.bare (c : ResultCode) : Result := ⟨c, none, 0⟩

end Sys2Proof.Machine
end

