-- ==== Sys2Proof/Machine/TableLogic.lean ====
section
/-! DEFINITION. The Table Logic's steps (spec/02_table_operations.md): one request at one bucket, on
the resident image, whole. `tableStep` is a function of the context and the image alone (R18, R19). -/

namespace Sys2Proof.Machine

/-- The bucket of the request's present visit: P, A, P again, or the index a maintenance request
carries (R18). -/
def Context.bucket (c : Context) : Bucket :=
  match c.visit with
  | .one => c.primary.getD c.request.bucket
  | .two => c.alternate.getD c.request.bucket
  | .three => c.primary.getD c.request.bucket

/-- The side of the bucket of the present visit (R13). -/
def Context.side (c : Context) : Side :=
  match c.visit with
  | .two => .alternate
  | _ => .primary

/-- The location of slot `k` of the visited bucket (R34). -/
def Context.at (c : Context) (k : Fin 5) : Option Location := some ⟨c.bucket, k, c.side⟩

/-- The context at dispatch (R19): visit 1, no reservation, no pending result. -/
def Context.fresh (r : Request) (size : Nat) (seed : BitVec 64) : Context :=
  { request := r,
    primary := if r.kind.keyed then some (primaryBucket size seed r.key) else none,
    alternate := if r.kind.keyed then some (alternateBucket size seed r.key) else none,
    visit := .one, reserved := false, pendingResult := none, image := none }

/-- A step with a final result (R20). -/
def finalStep (c : Context) (im : Image) (modifying : Bool) (r : Result) : StepResult :=
  ⟨im, modifying, c, .final r⟩

/-- A step that sends the request on to visit `v` (R20). -/
def goOnStep (c : Context) (im : Image) (modifying : Bool) (v : Visit) : StepResult :=
  ⟨im, modifying, { c with visit := v }, .goOn⟩

/-! ## What a kind does with its key -/

/-- Kinds that place an absent key, and so reserve when they leave P (R24, R27, R32). -/
def Kind.placing : Kind → Bool
  | .insert .add | .insert .upsert => true
  | .accumulate create _ => create
  | _ => false

/-- The accumulated value and the code of its result (R30): the exact sum, wrapped or clamped. -/
def accumulate (clamp : Bool) (v delta : BitVec 64) : BitVec 64 × ResultCode :=
  let sum : Int := v.toNat + delta.toInt
  if clamp = false then (v + delta, .accumulated)
  else if sum < 0 then (0, .clamped)
  else if sum > 2 ^ 64 - 1 then (BitVec.allOnes 64, .clamped)
  else (v + delta, .accumulated)

/-- What a request does with a found value: the value it writes, if any, its code and its result
value (R23, R24, R30). DELETE removes and is handled apart (R28). -/
def onFound (kind : Kind) (operand v : BitVec 64) : Option (BitVec 64) × ResultCode × BitVec 64 :=
  match kind with
  | .insert .add => (none, .exists, v)
  | .insert _ => (some operand, .replaced, v)
  | .accumulate _ clamp =>
    let (x, code) := accumulate clamp v operand
    (some x, code, x)
  | _ => (none, .found, v)

/-- The value a placing request places: its operand, or the creation value (R24, R32). -/
def placedValue (kind : Kind) (operand : BitVec 64) : BitVec 64 :=
  match kind with
  | .accumulate _ true => if operand.msb then 0 else operand
  | _ => operand

/-- Applies a request to the key found in slot `k`: the image, whether it is modified, and the result
(R23 to R25, R28, R30, R31). -/
def applyFound (c : Context) (im : Image) (k : Fin 5) : Image × Bool × Result :=
  match c.request.kind with
  | .delete => (im.remove k, true, ⟨.deleted, c.at k, im.slots[k].value⟩)
  | kind =>
    match onFound kind c.request.operand im.slots[k].value with
    | (some x, code, v) => (im.overwrite k x, true, ⟨code, c.at k, v⟩)
    | (none, code, v) => (im, false, ⟨code, c.at k, v⟩)

/-- Places the request's key in slot `k` and ends INSERTED (R9, R24 to R26, R32). -/
def placeStep (c : Context) (im : Image) (k : Fin 5) : StepResult :=
  let v := placedValue c.request.kind c.request.operand
  finalStep { c with reserved := false } (im.place k c.request.key v) true ⟨.inserted, c.at k, v⟩

/-- Reserves on P and continues to visit 2 (R15, R24). -/
def reserveStep (c : Context) (im : Image) : StepResult :=
  goOnStep { c with reserved := true } im.reserve true .two

/-! ## The three visits -/

/-- Visit 1 at P of a keyed request (R23, R24, R27, R28, R31, R32). -/
def visitOne (c : Context) (im : Image) : StepResult :=
  match im.search c.request.key with
  | some k =>
    let (im', modifying, r) := applyFound c im k
    finalStep c im' modifying r
  | none =>
    if c.request.kind.placing then
      if im.spill = 0 then
        match im.freeSlot with
        | some k => placeStep c im k
        | none => reserveStep c im
      else if im.spill = 255 then finalStep c im false (.bare .full)
      else reserveStep c im
    else if im.spill = 0 then finalStep c im false (.bare .absent)
    else goOnStep c im false .two

/-- Visit 2 at A (R23, R25, R28, R31, R32): a DELETE that removes, and a request with a reservation,
record their result as pending and return to P. -/
def visitTwo (c : Context) (im : Image) : StepResult :=
  match im.search c.request.key with
  | some k =>
    let (im', modifying, r) := applyFound c im k
    if c.reserved || c.request.kind == .delete then
      goOnStep { c with pendingResult := some r } im' modifying .three
    else finalStep c im' modifying r
  | none =>
    if c.request.kind.placing then
      match im.freeSlot with
      | some k => placeStep c im k
      | none => goOnStep c im false .three
    else finalStep c im false (.bare .absent)

/-- Visit 3 at P (R21, R26, R29, R32): the count falls by one; a pending result becomes final;
otherwise a placing request places in P or ends FULL. P is not searched again (R22). A request that
does not place comes here with a pending result alone. -/
def visitThree (c : Context) (im : Image) : StepResult :=
  let c' := { c with reserved := false }
  match c.pendingResult with
  | some r => finalStep c' im.release true r
  | none =>
    if c.request.kind.placing then
      match im.release.freeSlot with
      | some k => placeStep c' im.release k
      | none => finalStep c' im.release true (.bare .full)
    else finalStep c' im.release true (.bare .absent)

/-- A keyed request's step. -/
def keyedStep (c : Context) (im : Image) : StepResult :=
  match c.visit with
  | .one => visitOne c im
  | .two => visitTwo c im
  | .three => visitThree c im

/-- The RAW_READ step: copies the whole image into the context (R36). -/
def rawReadStep (c : Context) (im : Image) : StepResult :=
  ⟨im, false, { c with image := some im }, .store⟩

/-- The RAW_WRITE step: the context's image in normal form replaces the bucket's (R37). -/
def rawWriteStep (c : Context) (im : Image) : StepResult :=
  finalStep c (c.image.getD im).normalForm true (.bare .done)

/-- The REPAIR step at a listed bucket: the repaired bucket replaces the bucket's image (R38). -/
def repairStep (c : Context) : StepResult := finalStep c .repaired true (.bare .done)

/-- One step of one request on one image (R18, R20). FENCE and FLUSH make no visit (R85). -/
def tableStep (c : Context) (im : Image) : StepResult :=
  match c.request.kind with
  | .rawRead => rawReadStep c im
  | .rawWrite => rawWriteStep c im
  | .repair => repairStep c
  | .fence | .flush => finalStep c im false (.bare .done)
  | .lookup | .insert _ | .delete | .accumulate _ _ => keyedStep c im

end Sys2Proof.Machine
end

