-- ==== Sys2Proof/Machine/Ops.lean ====
section
/-! DEFINITION. The named operations every meaning is made of: reading and updating a slot, a line, a
bank, a counter; issuing and ending a bus access; the marks that a status update leaves; and the
tests of the engine state that the blocks share. -/

namespace Sys2Proof.Machine

/-! ## One home for each piece of state -/

/-- Slot `k` of the Request Table. -/
def State.slot (s : State) (k : SlotId) : Slot := s.rt.slots[k]

/-- Replaces slot `k`. -/
def State.setSlot (s : State) (k : SlotId) (x : Slot) : State :=
  { s with rt := { s.rt with slots := s.rt.slots.set k x } }

/-- Changes slot `k` by `f`. -/
def State.modifySlot (s : State) (k : SlotId) (f : Slot → Slot) : State := s.setSlot k (f (s.slot k))

/-- Set `i` of the Bucket Cache. -/
def State.cacheSet (s : State) (i : SetId) : CacheSet := s.bc.sets[i]

/-- Replaces set `i`. -/
def State.putSet (s : State) (i : SetId) (c : CacheSet) : State :=
  { s with bc := { s.bc with sets := s.bc.sets.set i c } }

/-- Line `w` of set `i`. -/
def State.line (s : State) (i : SetId) (w : Way) : Line := (s.cacheSet i).lines[w]

/-- Replaces line `w` of set `i`. -/
def State.setLine (s : State) (i : SetId) (w : Way) (l : Line) : State :=
  s.putSet i { s.cacheSet i with lines := (s.cacheSet i).lines.set w l }

/-- Changes line `w` of set `i` by `f`. -/
def State.modifyLine (s : State) (i : SetId) (w : Way) (f : Line → Line) : State :=
  s.setLine i w (f (s.line i w))

/-- Bank `b` of the Memory Controller. -/
def State.bank (s : State) (b : BankId) : Bank := s.mc.banks[b]

/-- Replaces bank `b`. -/
def State.setBank (s : State) (b : BankId) (x : Bank) : State :=
  { s with mc := { s.mc with banks := s.mc.banks.set b x } }

/-- Changes bank `b` by `f`. -/
def State.modifyBank (s : State) (b : BankId) (f : Bank → Bank) : State := s.setBank b (f (s.bank b))

/-- Changes the counters by `f` (R173). -/
def State.count (s : State) (f : Counters → Counters) : State :=
  { s with ec := { s.ec with counters := f s.ec.counters } }

/-- Every slot number. -/
def allSlots : List SlotId := List.finRange 64

/-- Every set number. -/
def allSets : List SetId := List.finRange 128

/-- Every way number. -/
def allWays : List Way := [0, 1, 2, 3]

/-- Every bank number. -/
def allBanks : List BankId := [0, 1, 2, 3, 4, 5, 6, 7]

/-! ## Tests of the engine state -/

/-- The Chain Unit and the Request Table may issue host memory accesses: RUNNING, or STOPPING with
ending STOP (R96, R110, R163). -/
def State.mayIssue (s : State) : Bool :=
  s.ec.engine == .running || (s.ec.engine == .stopping && s.ec.ending == .stop)

/-- An ABANDON is in progress (R162). -/
def State.abandoning (s : State) : Bool := s.ec.engine == .stopping && s.ec.ending == .abandon

/-- A STOP is in force for the Chain Unit: in STOPPING, or in a stall that returns to it (R108, R109;
log entry 10). -/
def State.stopInForce (s : State) : Bool :=
  (s.ec.engine == .stopping && s.ec.ending == .stop)
    || (s.ec.engine == .stalled && s.ec.resumeState == .stopping)

/-! ## Bus accesses -/

/-- Issues a bus access: the Bus Interface holds it until it completes or faults. -/
def State.issue (s : State) (kind : AccessKind) (addr : Addr) (size : Nat) (data : List Byte) :
    State :=
  { s with
    bi := { s.bi with
      accesses := s.bi.accesses ++ [⟨s.bi.nextTag, kind, addr, size, data, true⟩]
      nextTag := s.bi.nextTag + 1 } }

/-- Issues a read of `size` bytes. -/
def State.issueRead (s : State) (kind : AccessKind) (addr : Addr) (size : Nat) : State :=
  s.issue kind addr size []

/-- Issues a write of these bytes. -/
def State.issueWrite (s : State) (kind : AccessKind) (addr : Addr) (data : List Byte) : State :=
  s.issue kind addr data.length data

/-- Puts an access that had faulted back on the bus as it was, tag included (R108). -/
def State.reissue (s : State) (a : BusAccess) : State :=
  { s with bi := { s.bi with accesses := s.bi.accesses ++ [a] } }

/-- The outstanding access with this tag. -/
def State.accessOf (s : State) (tag : Nat) : Option BusAccess :=
  s.bi.accesses.find? fun a => a.tag == tag

/-- Takes the access with this tag off the bus: it has ended. -/
def State.endAccess (s : State) (tag : Nat) : State :=
  { s with bi := { s.bi with accesses := s.bi.accesses.filter fun a => a.tag != tag } }

/-- Whether a live access satisfies `p`. -/
def State.outstanding (s : State) (p : AccessKind → Bool) : Bool :=
  s.bi.accesses.any fun a => a.live && p a.kind

/-- Whether a START's profile read is outstanding on the bus, that of a START which an engine reset has
discarded included (R152). -/
def State.readsTableProfile (s : State) : Bool :=
  s.bi.accesses.any fun a => a.kind == .tableProfileRead

/-- The accesses of the Chain Unit (R106). -/
def AccessKind.ofChain : AccessKind → Bool
  | .headerRead | .takenWrite | .recordRead _ | .linkRead | .resultWrite _ | .retirementWrite
  | .releaseWrite _ => true
  | _ => false

/-- The buffer accesses of the Request Table (R86, R87). -/
def AccessKind.ofBuffer : AccessKind → Bool
  | .bufferRead _ | .bufferWrite _ => true
  | _ => false

/-- Inserts a faulted access into a list kept in issue order (R106): tags rise with issue. -/
def insertByTag (a : BusAccess) : List BusAccess → List BusAccess
  | [] => [a]
  | b :: bs => if a.tag ≤ b.tag then a :: b :: bs else b :: insertByTag a bs

/-! ## Status updates and interrupt causes (R169, R171) -/

/-- INTCAUSE bit of RETIRE. -/
def causeRetire : BitVec 5 := 1#5
/-- INTCAUSE bit of PARK. -/
def causePark : BitVec 5 := 2#5
/-- INTCAUSE bit of STALL. -/
def causeStall : BitVec 5 := 4#5
/-- INTCAUSE bit of STATE. -/
def causeState : BitVec 5 := 8#5
/-- INTCAUSE bit of POISON. -/
def causePoison : BitVec 5 := 16#5

/-- A status update: the block is owed, if an address is known (R169). -/
def State.statusUpdate (s : State) : State :=
  if s.ec.statusAddr.isSome then
    { s with ec := { s.ec with status := { s.ec.status with owed := .now } } }
  else s

/-- An event of an interrupt cause: it waits for the first status write issued after it, or, with no
address known, sets the cause at once (R171). -/
def State.raise (s : State) (cause : BitVec 5) : State :=
  if s.ec.statusAddr.isSome then
    { s with ec := { s.ec with
        status := { s.ec.status with waitingCauses := s.ec.status.waitingCauses ||| cause } } }
  else { s with ec := { s.ec with intCause := s.ec.intCause ||| cause } }

/-- Sets stall cause flags (R163). -/
def State.setStallCauses (s : State) (host bad : Bool) : State :=
  { s with ec := { s.ec with
      stallHostFault := s.ec.stallHostFault || host, stallBadBatch := s.ec.stallBadBatch || bad } }

/-- Entry to STALLED from a state that resumes to `r` (R163); the ending is NONE there (R158). -/
def State.enterStall (s : State) (r : ResumeState) (host bad : Bool) : State :=
  let s' := s.setStallCauses host bad
  ({ s' with ec := { s'.ec with
      engine := .stalled, ending := .none, resumeState := r,
      status := { s'.ec.status with stallReportIssued := false } } } : State).statusUpdate.raise
    causeStall

/-- A report of HOST_FAULT or BAD_BATCH (R163): it stalls a RUNNING engine and one STOPPING with
ending STOP, sets its flag in a STALLED one, and does nothing elsewhere (R162, R170). -/
def State.reportStall (s : State) (host bad : Bool) : State :=
  if s.ec.engine == .running then s.enterStall .running host bad
  else if s.ec.engine == .stopping && s.ec.ending == .stop then s.enterStall .stopping host bad
  else if s.ec.engine == .stalled then
    if (host && !s.ec.stallHostFault) || (bad && !s.ec.stallBadBatch) then
      (s.setStallCauses host bad).statusUpdate
    else s
  else s

/-- A HOST_FAULT report (R106, R89, R170). -/
def State.reportHostFault (s : State) : State := s.reportStall true false

/-- A BAD_BATCH report (R97). -/
def State.reportBadBatch (s : State) : State := s.reportStall false true

/-! ## Ends of an event -/

/-- The outcome of an event: the settled state, or the model's own fault (log entry 3). -/
def outcomeOf : Option State → Host.Outcome State Fault Refusal
  | some s => .next s
  | none => .fault .unsettled

end Sys2Proof.Machine
end

