-- ==== Sys2Proof/Machine/Flags.lean ====
section
/-! DEFINITION. The flags the part shows: the interrupt line (R172), the STATE word (R167) and the
reads of the register window (R166, R174). -/

namespace Sys2Proof.Machine

/-- The interrupt line: asserted while a cause is set whose enable is set (R172). -/
def State.interruptLine (s : State) : Bool := s.ec.intCause &&& s.ec.intMask != 0

/-- One flag as a number. -/
def bit (b : Bool) : Nat := if b then 1 else 0

/-- The STATE word, field by field (R167; spec/11_layouts_and_codes.md, Register window). -/
def State.stateWord (s : State) : Word :=
  BitVec.ofNat 32
    (s.ec.engine.code + bit s.ec.stallHostFault * 2 ^ 3 + bit s.ec.stallBadBatch * 2 ^ 4
      + bit s.ec.statusWriteFault * 2 ^ 5 + bit s.cu.parked * 2 ^ 6
      + bit s.ec.refusedCommand.isSome * 2 ^ 7 + s.ec.failureCause.code * 2 ^ 8
      + s.ec.refusalCause.code * 2 ^ 11 + (s.ec.refusedCommand.getD 0).toNat * 2 ^ 16
      + s.mc.laneFaults.toNat * 2 ^ 24)

/-- A 32-bit read of the window at a byte offset (R166, R174); it changes nothing. -/
def State.readRegister (s : State) (offset : Nat) : Word :=
  match offset / 4 with
  | 1 => s.stateWord
  | 3 => s.bi.setupL
  | 4 => s.bi.setupH
  | 5 => s.ec.intCause.setWidth 32
  | 6 => s.ec.intMask.setWidth 32
  | _ => 0

/-- A read of one byte of the window: the addressed byte of the register's value (R174). -/
def State.readRegisterByte (s : State) (offset : Nat) : Byte :=
  (s.readRegister offset).extractLsb' (8 * (offset % 4)) 8

/-- The setup block address: SETUPL is its low half (R166). -/
def State.setupAddr (s : State) : Addr := s.bi.setupH ++ s.bi.setupL

end Sys2Proof.Machine
end

