-- ==== Sys2Proof/Machine/Status.lean ====
section
/-! DEFINITION. The status block: its 256 bytes (R168, R176) and the issue of its writes (R163,
R169). -/

namespace Sys2Proof.Machine

/-- One poison entry: three bytes of bucket index and the reason (R176). -/
def PoisonEntry.bytes (e : PoisonEntry) : List Byte :=
  numberBytes 3 e.bucket ++ numberBytes 1 e.reason.code

/-- The 128 bytes of the poison entries, unused ones zero (R176). -/
def poisonBytes (l : List PoisonEntry) : List Byte :=
  (l.flatMap PoisonEntry.bytes) ++ zeroBytes (4 * (Config.poisonLimit - l.length))

/-- Bytes 12 to 23: the identity, or zeros for NONE (R176). -/
def identityBytes : Option Identity → List Byte
  | some i => [1] ++ numberBytes 1 i.size ++ zeroBytes 2 ++ bytesOf 8 i.seed
  | none => zeroBytes 12

/-- Bytes 40 to 111: the nine counters (R176). -/
def Counters.bytes (c : Counters) : List Byte :=
  bytesOf 8 c.requestsCompleted ++ bytesOf 8 c.lookupsFound ++ bytesOf 8 c.fills
    ++ bytesOf 8 c.castouts ++ bytesOf 8 c.throughWrites ++ bytesOf 8 c.poisonings
    ++ bytesOf 8 c.readRetries ++ bytesOf 8 c.writeRetries ++ bytesOf 8 c.refreshOverruns

/-- The 256 bytes of a status block write, as the state stands (R168, R176). The bits of bytes 1, 3, 6
and 113 to which no flag is given are written zero (the model's choice, log entry 32). -/
def State.statusBlock (s : State) : List Byte :=
  numberBytes 1 s.ec.engine.code
    ++ numberBytes 1 (bit s.ec.stallHostFault + 2 * bit s.ec.stallBadBatch)
    ++ numberBytes 1 s.ec.refusalCause.code
    ++ numberBytes 1 (bit s.ec.refusedCommand.isSome)
    ++ [s.ec.refusedCommand.getD 0]
    ++ [s.mc.laneFaults]
    ++ numberBytes 1 (bit s.cu.parked)
    ++ zeroBytes 1
    ++ numberBytes 4 (s.mc.rows.getD 0)
    ++ identityBytes s.ec.identity
    ++ bytesOf 8 s.cu.retireSeq
    ++ bytesOf 8 s.ec.lastRetired
    ++ s.ec.counters.bytes
    ++ numberBytes 1 s.bc.poison.length
    ++ numberBytes 1 (bit s.bc.overflow)
    ++ zeroBytes 6
    ++ poisonBytes s.bc.poison
    ++ zeroBytes 8

/-- Whether a status write may issue now: the block is owed, an address is known, none is
outstanding, and the engine is not STALLED with its stall report already issued (R169). -/
def State.statusDue (s : State) : Bool :=
  s.ec.status.owed == .now && s.ec.statusAddr.isSome && s.ec.status.outstanding.isNone
    && !(s.ec.engine == .stalled && s.ec.status.stallReportIssued)

/-- Issues the status write: the causes that waited are attached to it, and in a stall it is the
stall report (R163, R169, R171). -/
def State.issueStatus (s : State) : State :=
  let s' := s.issueWrite .statusWrite (s.ec.statusAddr.getD 0) s.statusBlock
  { s' with ec := { s'.ec with status :=
      { owed := .nothing, waitingCauses := 0, attachedCauses := s.ec.status.waitingCauses,
        outstanding := some s.bi.nextTag,
        stallReportIssued := s.ec.status.stallReportIssued || s.ec.engine == .stalled } } }

/-- The end of every event that can hold a status update: the one write that carries all of the
event's updates issues if R169 allows (log entry 13). -/
def State.closeEvent (s : State) : State := if s.statusDue then s.issueStatus else s

end Sys2Proof.Machine
end

