-- ==== Sys2Proof/Machine/Chain.lean ====
section
/-! DEFINITION. The Chain Unit (spec/06_batches_and_the_chain.md): slots given to record reads, taking,
links, parking, retirement, release, result writes, and the closing of the chain. -/

namespace Sys2Proof.Machine

/-! ## Slots (R78, R80, R90, R160) -/

/-- The lowest-numbered FREE slot (R80). -/
def State.lowestFree (s : State) : Option SlotId :=
  allSlots.find? fun k => (s.slot k).state == .free

/-- Slot `k` becomes FREE and leaves every list of the Request Table (R80, R92). -/
def State.freeSlot (s : State) (k : SlotId) : State :=
  let s' := s.setSlot k .empty
  { s' with
    rt := { s'.rt with
      age := s'.rt.age.filter (· != k)
      unreported := s'.rt.unreported.filter (· != k) }
    cu := { s'.cu with given := s'.cu.given.filter (· != k) } }

/-- Whether every slot is FREE. -/
def State.allFree (s : State) : Bool := allSlots.all fun k => (s.slot k).state == .free

/-- The Request Table's report that it is empty, held during a STOP or ABANDON while every slot is
FREE (R90, R91). -/
def State.reportEmpty (s : State) : State :=
  if s.ec.engine == .stopping || s.stopInForce then
    { s with ec := { s.ec with tableEmpty := s.allFree } }
  else s

/-- The completion of STOPPING, once both reports are held (R160, R162). -/
def State.completeStop (s : State) : State :=
  if s.ec.engine == .stopping && s.ec.tableEmpty && s.ec.chainClosed then
    ({ s with ec := { s.ec with
        engine := .ready, ending := .none, tableEmpty := false, chainClosed := false } } :
      State).statusUpdate.raise causeState
  else s

/-! ## Open batches -/

/-- The open batch at an address. -/
def State.openBatch (s : State) (a : Addr) : Option OpenBatch :=
  s.cu.batches.find? fun b => b.addr == a

/-- Changes the open batch at an address. -/
def State.updateBatch (s : State) (a : Addr) (f : OpenBatch → OpenBatch) : State :=
  { s with cu := { s.cu with
      batches := s.cu.batches.map fun b => if b.addr == a then f b else b } }

/-! ## Record reads (R80, R99) -/

/-- Gives slot `k` to the next record of batch `b` (R80): FETCHING, at the tail of the age list. -/
def State.giveSlot (s : State) (b : OpenBatch) (k : SlotId) : State :=
  let s' := (s.setSlot k { Slot.empty with
    state := .fetching, batch := b.addr, index := b.nextRecord }).updateBatch b.addr
      fun e => { e with nextRecord := e.nextRecord + 1 }
  { s' with
    rt := { s'.rt with age := s'.rt.age ++ [k] }
    cu := { s'.cu with given := s'.cu.given ++ [k] } }

/-- One slot given, if the phase is RECORDS, a record is left and a slot is FREE (R80, R99). -/
def State.giveOne (s : State) : Option State :=
  if s.cu.phase == .records then
    (s.cu.current.bind s.openBatch).bind fun b =>
      if b.nextRecord < b.recordCount then s.lowestFree.map (s.giveSlot b) else none
  else none

/-- Slots are given while they last (R99); there are 64. -/
def State.giveSlots : Nat → State → State
  | 0, s => s
  | n + 1, s =>
    match s.giveOne with
    | some s' => State.giveSlots n s'
    | none => s

/-- After the last record read of batch `a`: it becomes the anchor, and its link is read, unless a
STOP is in force (R99, R109). -/
def State.afterLastRecord (s : State) (a : Addr) : State :=
  let s' := { s with cu := { s.cu with current := none, anchor := some ⟨a, false, false⟩ } }
  if s.stopInForce then { s' with cu := { s'.cu with phase := .ended } }
  else ({ s' with cu := { s'.cu with phase := .link } } : State).issueRead .linkRead a 8

/-- The address of record `i` of the batch at `a` (R93). -/
def recordAddr (a : Addr) (i : Nat) : Addr := a + 64 + BitVec.ofNat 64 (64 * i)

/-- Issues the read of the record given slot `k`; after the last one the link read (R99). -/
def State.issueRecordRead (s : State) (k : SlotId) : State :=
  let x := s.slot k
  let s' := s.issueRead (.recordRead k) (recordAddr x.batch x.index) 64
  match s.openBatch x.batch with
  | some b => if x.index + 1 = b.recordCount then s'.afterLastRecord x.batch else s'
  | none => s'

/-- Issues the record reads of the slots given, unless the engine is STALLED (R106, R108). -/
def State.issueGiven (s : State) : State :=
  if s.mayIssue then
    s.cu.given.foldl State.issueRecordRead { s with cu := { s.cu with given := [] } }
  else s

/-- The record reads of phase RECORDS (R99; log entry 14). -/
def State.readRecords (s : State) : State := (State.giveSlots 64 s).issueGiven

/-! ## Headers and links (R97, R98, R100, R101) -/

/-- A batch is refused (R97): the Chain Unit is BLOCKED and reports BAD_BATCH. That the next address stays
is the model's choice (log entry 33). -/
def State.refuseBatch (s : State) : State :=
  ({ s with cu := { s.cu with phase := .blocked, badBatch := true } } : State).reportBadBatch

/-- Whether a header read is outstanding, or remembered as faulted until it is issued again (R97,
R106). -/
def State.readsHeader (s : State) : Bool :=
  s.outstanding (· == .headerRead) || s.cu.faulted.any fun a => a.kind == .headerRead

/-- The header read of phase HEADER, once fewer than 8 batches are open; a misaligned address is
refused instead (R97; log entry 15). -/
def State.readHeader (s : State) : State :=
  if s.cu.phase == .header && s.cu.batches.length < Config.openLimit then
    match s.cu.nextAddr with
    | some a =>
      if !aligned64 a then s.refuseBatch
      else if s.mayIssue && !s.readsHeader then s.issueRead .headerRead a 64
      else s
    | none => s
  else s

/-- Phase LINK; the anchor's link is read, or its read waits for a stall's end (R100, R108). -/
def State.readLink (s : State) : State :=
  let s' := { s with cu := { s.cu with phase := .link } }
  match s.cu.anchor with
  | some a => if s.mayIssue then s'.issueRead .linkRead a.addr 8 else s'
  | none => s'

/-- The release of a batch whose two conditions hold (R105): the write issues, or waits for a stall's
end. -/
def State.release (s : State) (a : Addr) : State :=
  let anchor := s.cu.anchor.map fun x => if x.addr == a then { x with released := true } else x
  if s.mayIssue then
    ({ s with cu := { s.cu with anchor := anchor, releases := s.cu.releases ++ [a] } } :
      State).issueWrite (.releaseWrite a) (a + 26) releasedBytes
  else
    { s with cu := { s.cu with
        anchor := anchor, releasesWaiting := s.cu.releasesWaiting ++ [a] } }

/-- The anchor's link is followed (R98, R105): an open anchor is marked, a retired one released. -/
def State.followAnchor (s : State) : State :=
  match s.cu.anchor with
  | some a =>
    if (s.openBatch a.addr).isSome then
      s.updateBatch a.addr fun b => { b with linkFollowed := true }
    else if a.retired then s.release a.addr
    else s
  | none => s

/-- The TAKEN write of the current batch (R98). -/
def State.writeTaken (s : State) (a : Addr) : State :=
  if s.mayIssue then s.issueWrite .takenWrite (a + 26) takenBytes else s

/-- Taking a batch is one event at header arrival (R98). That the release write of a retired anchor
issues before the TAKEN write, and that no next address is held from here on, are the model's choices
(log entries 7 and 33). -/
def State.takeBatch (s : State) (a : Addr) (d : Block64) : State :=
  let s' := s.followAnchor
  ({ s' with cu := { s'.cu with
      phase := .taking, current := some a, nextAddr := none,
      batches := s'.cu.batches ++ [⟨a, headerCount d, headerNotify d, 0, 0, false⟩] } } :
    State).writeTaken a

/-- The Chain Unit parks (R101); PARK is raised if the table profile enables it. -/
def State.park (s : State) : State :=
  let s' := ({ s with cu := { s.cu with phase := .parked, parked := true } } : State).statusUpdate
  if s.ec.parkEnable then s'.raise causePark else s'

/-- The parked flag is cleared and the change reported (R101). -/
def State.unpark (s : State) : State :=
  if s.cu.parked then
    ({ s with cu := { s.cu with parked := false } } : State).statusUpdate
  else s

/-- What the Chain Unit does with the link it has read (R100). -/
def State.followLink (s : State) (link : Addr) : State :=
  if link != 0 then
    ({ s with cu := { s.cu with phase := .header, nextAddr := some link } } : State).readHeader
  else if s.cu.nudgePending then
    ({ s with cu := { s.cu with nudgePending := false } } : State).readLink
  else s.park

/-! ## Retirement (R103, R104) -/

/-- The retirement of the oldest open batch begins, if R103's three conditions hold. -/
def State.beginRetirement (s : State) : State :=
  match s.cu.batches with
  | b :: _ =>
    if b.doneCount = b.recordCount && !s.cu.retirementOutstanding && s.mayIssue then
      ({ s with cu := { s.cu with retirementOutstanding := true } } : State).issueWrite
        .retirementWrite (b.addr + 16) (retirementBytes (s.cu.retireSeq + 1) b.doneCount)
    else s
  | [] => s

/-- The retirement report to the Engine Control (R104): the last retired batch, a status update, and
RETIRE if NOTIFY was set. -/
def State.reportRetirement (s : State) (b : OpenBatch) : State :=
  let s' := ({ s with ec := { s.ec with lastRetired := b.addr } } : State).statusUpdate
  if b.notify then s'.raise causeRetire else s'

/-- The anchor's retired mark, if the anchor is the batch at `a` (R104). -/
def State.markAnchorRetired (s : State) (a : Addr) : State :=
  { s with cu := { s.cu with
      anchor := s.cu.anchor.map fun x => if x.addr == a then { x with retired := true } else x } }

/-- What follows the retirement of `b` for its release (R104, R105); under ABANDON no release write
follows (R110). -/
def State.releaseRetired (s : State) (b : OpenBatch) : State :=
  if b.linkFollowed then if s.abandoning then s else s.release b.addr
  else s.markAnchorRetired b.addr

/-- The oldest open batch has retired (R104). -/
def State.retire (s : State) : State :=
  match s.cu.batches with
  | b :: rest =>
    (({ s with cu := { s.cu with
        retireSeq := s.cu.retireSeq + 1, batches := rest, retirementOutstanding := false } } :
      State).reportRetirement b).releaseRetired b
  | [] => { s with cu := { s.cu with retirementOutstanding := false } }

/-! ## Result writes (R88) -/

/-- The address of the result fields of the record in slot `k`. -/
def resultAddr (x : Slot) : Addr := recordAddr x.batch x.index + 40

/-- Issues the result write of slot `k`, which becomes REPORTING (R88). -/
def State.issueResult (s : State) (k : SlotId) : State :=
  (s.modifySlot k fun x => { x with state := .reporting }).issueWrite (.resultWrite k)
    (resultAddr (s.slot k)) (resultBytes ((s.slot k).result.getD (.bare .done)))

/-- Counts an answered request: done count of its batch, requests completed, lookups found (R88). -/
def State.countAnswer (s : State) (x : Slot) : State :=
  let found := (x.request.map Request.kind) == some .lookup
    && (x.result.map Result.code) == some .found
  (s.updateBatch x.batch fun b => { b with doneCount := b.doneCount + 1 }).count fun c =>
    { c with
      requestsCompleted := c.requestsCompleted + 1
      lookupsFound := if found then c.lookupsFound + 1 else c.lookupsFound }

/-! ## Closing the chain (R109, R110) -/

/-- Under STOP, with no batch open and no retirement outstanding: the anchor that was not released is
released, whatever the phase; the chain is closed once the phase is ENDED and nothing of the Chain
Unit is outstanding (R109). That no next address is held then is the model's choice (log entry 33). -/
def State.closeAfterStop (s : State) : State :=
  if s.cu.batches.isEmpty && !s.cu.retirementOutstanding then
    match s.cu.anchor with
    | some ⟨a, _, false⟩ => if s.mayIssue then s.release a else s
    | _ =>
      if s.cu.phase == .ended && !s.outstanding AccessKind.ofChain && s.cu.faulted.isEmpty
          && s.cu.releasesWaiting.isEmpty then
        { s with
          cu := { s.cu with phase := .idle, anchor := none, nudgePending := false, nextAddr := none }
          ec := { s.ec with chainClosed := true } }
      else s
  else s

/-- Under ABANDON: once nothing of the Chain Unit is outstanding, batches and anchor are forgotten and
the chain is closed (R110). That no next address is held then is the model's choice (log entry 33), and so
is that the current batch, the retirement outstanding mark and the batches with release writes, where
ABANDON finds them, are kept until then and forgotten with the rest (log entry 34). -/
def State.closeAfterAbandon (s : State) : State :=
  if s.cu.phase == .ended && !s.outstanding AccessKind.ofChain then
    { s with
      cu := { s.cu with
        phase := .idle, anchor := none, current := none, batches := [], nextAddr := none,
        retirementOutstanding := false, releases := [] }
      ec := { s.ec with chainClosed := true } }
  else s

/-- The Chain Unit closes the chain if a STOP or ABANDON lets it. -/
def State.closeChain (s : State) : State :=
  if s.abandoning then s.closeAfterAbandon
  else if s.stopInForce then s.closeAfterStop
  else s

/-- What every event of the chain may end with: the empty report, the closing of the chain, the
completion of STOPPING, and the status write (R90, R109, R110, R160). -/
def State.settleStop (s : State) : State := s.reportEmpty.closeChain.completeStop

/-! ## RESUME (R108) -/

/-- Step 2 of R108: after a bad batch the anchor's link, or the chain start, is read again. -/
def State.resumeBadBatch (s : State) : State :=
  if s.cu.badBatch then
    let s' := { s with cu := { s.cu with badBatch := false } }
    match s.cu.anchor with
    | some _ => s'.readLink
    | none =>
      { s' with cu := { s'.cu with phase := .header, nextAddr := some s.cu.chainStart } }
  else s

/-- Step 3 of R108: PARKED with nudge-pending set. -/
def State.resumeParked (s : State) : State :=
  if s.cu.phase == .parked && s.cu.nudgePending then
    ({ s with cu := { s.cu with nudgePending := false } } : State).unpark.readLink
  else s

/-- A TAKEN write or a link read that waited through the stall (step 4 of R108; log entry 27). -/
def State.resumeWaiting (s : State) : State :=
  if s.cu.phase == .taking && !s.outstanding (· == .takenWrite) then
    match s.cu.current with
    | some a => s.writeTaken a
    | none => s
  else if s.cu.phase == .link && !s.outstanding (· == .linkRead) then s.readLink
  else s

/-- The result writes that waited through the stall, in finishing order (R88, R108). -/
def State.resumeResults (s : State) : State :=
  if s.mayIssue then
    s.rt.unreported.foldl State.issueResult { s with rt := { s.rt with unreported := [] } }
  else s

/-- The release writes that waited through the stall (R108). -/
def State.resumeReleases (s : State) : State :=
  if s.mayIssue then
    s.cu.releasesWaiting.foldl State.release { s with cu := { s.cu with releasesWaiting := [] } }
  else s

/-- The Chain Unit's part of RESUME, in the order of R108. -/
def State.resumeChain (s : State) : State :=
  let s' := s.cu.faulted.foldl State.reissue { s with cu := { s.cu with faulted := [] } }
  s'.resumeBadBatch.resumeParked.resumeWaiting.readRecords.resumeResults.readHeader.beginRetirement.resumeReleases

end Sys2Proof.Machine
end

