-- ==== Sys2Proof/Machine/Memory.lean ====
section
/-! DEFINITION. The Memory Controller's shared operations (spec/07_table_memory_controller.md): mapping,
timers, acceptance of accesses and queue waits, retries, the open-row query, and the drain after an
engine reset. -/

namespace Sys2Proof.Machine

/-! ## Mapping (R112) -/

/-- The bank of a bucket (R112). -/
def bankOf (b : Bucket) : BankId := ⟨b / 64 % 8, Nat.mod_lt _ (by decide)⟩

/-- The row of a bucket (R112). -/
def rowOf (b : Bucket) : Nat := b / 512

/-- The column slot of a bucket (R112). -/
def colOf (b : Bucket) : Nat := b % 64

/-- The group of a bank (R112). -/
def groupOf (b : BankId) : GroupId := if b.val < 4 then 0 else 1

/-- The other group. -/
def otherGroup (g : GroupId) : GroupId := if g = 0 then 1 else 0

/-- The bank of a place (R112, R131). -/
def Place.bank : Place → BankId
  | .bucket b => bankOf b
  | .direct b _ _ => b

/-- The row of a place. -/
def Place.row : Place → Nat
  | .bucket b => rowOf b
  | .direct _ r _ => r

/-- The column of a place. -/
def Place.col : Place → Nat
  | .bucket b => colOf b
  | .direct _ _ c => c

/-! ## Timers -/

/-- Whether a timer runs; a gate is open when its timer does not. -/
def Timer.isRunning : Timer → Bool
  | .running _ => true
  | .stopped => false

/-- A timer started with an interval of the profile held (R117; log entry 9). -/
def State.timer (s : State) (f : MemoryProfile → Nat) : Timer := .running (s.mc.profile.map f)

/-! ## Accesses -/

/-- Whether a direction is a write. -/
def Direction.isWrite : Direction → Bool
  | .write _ => true
  | .read => false

/-- The UNISSUED accesses of a queue, in queue order (R119). -/
def Bank.unissued (x : Bank) : List Access := x.queue.filter fun a => !a.issued

/-- The arrival of an UNISSUED access at a bank stops its IDLE_CLOSE timer and withdraws its
candidacy (R126). -/
def State.wakeBank (s : State) (b : BankId) : State :=
  let s' := s.modifyBank b fun x => { x with idleClose := .stopped }
  { s' with mc := { s'.mc with idleCandidates := s'.mc.idleCandidates.filter (· != b) } }

/-- An OPEN bank without an UNISSUED access falls idle: its IDLE_CLOSE timer starts (R126). -/
def State.fallIdle (s : State) (b : BankId) : State :=
  match (s.bank b).state with
  | .opened _ =>
    if (s.bank b).unissued.isEmpty then
      s.modifyBank b fun x => { x with idleClose := s.timer MemoryProfile.idleClose }
    else s
  | _ => s

/-- Acceptance into the bank's queue: attempt 1, overtaken count 0, UNISSUED, the next age (R119). -/
def State.accept (s : State) (t : Transaction) : State :=
  let b := t.place.bank
  let s' := (s.modifyBank b fun x =>
    { x with queue := x.queue ++ [⟨t, 1, 0, s.mc.nextAge, false, .stopped, false⟩] }).wakeBank b
  { s' with mc := { s'.mc with nextAge := s.mc.nextAge + 1 } }

/-- Whether the bank's queue has a place (R119). -/
def State.hasRoom (s : State) (b : BankId) : Bool :=
  (s.bank b).queue.length < Config.queueDepth

/-- Hand-over of an access: accepted, or left in a queue wait when the queue is full, when older
hand-overs wait for the bank, or while the controller accepts nothing (R119, R120, R132). -/
def State.handOver (s : State) (t : Transaction) : State :=
  if s.mc.accepting && s.hasRoom t.place.bank
      && !s.mc.waits.any (fun u => u.place.bank == t.place.bank) then s.accept t
  else { s with mc := { s.mc with waits := s.mc.waits ++ [t] } }

/-! ## The clear sweep's writes (R130, R154) -/

/-- Whether a sweep write waits in a queue wait. -/
def State.sweepWaits (s : State) : Bool := s.mc.waits.any fun t => t.requester == .sweep

/-- One write of the sweep is handed over; the last one moves the phase to DRAINING (R154). -/
def State.handSweepWrite (s : State) : State :=
  let n := s.ec.sweep.next
  ({ s with ec := { s.ec with sweep :=
      { phase := if n + 1 = 2 ^ s.tl.size then .draining else .writing, next := n + 1,
        outstanding := s.ec.sweep.outstanding + 1 } } } : State).handOver
    ⟨.bucket n, .write .blank, .sweep⟩

/-- The sweep hands over writes, each in the event in which the previous one is accepted (R154). -/
def State.pumpSweep : Nat → State → State
  | 0, s => s
  | n + 1, s =>
    if s.ec.sweep.phase == .writing && !s.sweepWaits then State.pumpSweep n s.handSweepWrite else s

/-- The sweep goes on as far as it can. -/
def State.continueSweep (s : State) : State := State.pumpSweep Config.sweepBound s

/-! ## Ends of accesses -/

/-- The access of this age in a bank's queue. -/
def State.queued (s : State) (b : BankId) (age : Nat) : Option Access :=
  (s.bank b).queue.find? fun a => a.age == age

/-- A freed place is taken by the oldest access in the bank's queue wait (R120). -/
def State.acceptWaiting (s : State) (b : BankId) : State :=
  if s.mc.accepting && s.hasRoom b then
    match s.mc.waits.find? fun t => t.place.bank == b with
    | some t =>
      let s' := ({ s with mc := { s.mc with
        waits := s.mc.waits.eraseP fun u => u.place.bank == b } } : State).accept t
      if t.requester == .sweep then s'.continueSweep else s'
    | none => s
  else s

/-- The access leaves its queue, and its place is taken (R119, R120). -/
def State.leaveQueue (s : State) (b : BankId) (age : Nat) : State :=
  (s.modifyBank b fun x => { x with queue := x.queue.filter fun a => a.age != age }).acceptWaiting b

/-- A retry: UNISSUED with its attempt raised by one, at the head of its bank queue, keeping age and
overtaken count (R121). That it stands ahead of an earlier retry still UNISSUED there is the model's
choice (log entry 31). -/
def State.retryAccess (s : State) (b : BankId) (a : Access) : State :=
  (s.modifyBank b fun x =>
    { x with queue := { a with issued := false, attempt := a.attempt + 1, alert := .stopped } ::
        x.queue.filter fun c => c.age != a.age }).wakeBank b

/-! ## The drain after an engine reset (R132) -/

/-- Whether a bank is CLOSED or REFRESHING. -/
def Bank.atRest (x : Bank) : Bool := x.state == .closed || x.state == .refreshing

/-- Whether the drain has ended: nothing in flight, every bank CLOSED or REFRESHING (R132). -/
def State.drained (s : State) : Bool :=
  allBanks.all fun b => (s.bank b).atRest && (s.bank b).queue.isEmpty

/-- Once the drain has ended the controller accepts accesses again, beginning with those in queue
waits, in hand-over order (R132; log entry 19). -/
def State.resumeAccepting (s : State) : State :=
  if !s.mc.accepting && s.drained then
    (s.mc.waits.foldl State.handOver
      { s with mc := { s.mc with accepting := true, waits := [] } }).continueSweep
  else s

/-! ## The open-row query (R66, R127) -/

/-- Whether the bank of bucket `b` is OPEN or OPENING with its row. -/
def State.openRow (s : State) (b : Bucket) : Bool :=
  match (s.bank (bankOf b)).state with
  | .opened r | .opening r => r == rowOf b
  | _ => false

end Sys2Proof.Machine
end

