-- ==== Sys2Proof/Machine/Sweep.lean ====
section
/-! DEFINITION. The clear sweep's ends, the entry to RUNNING (spec/09_bring_up_clearing_and_table_identity.md),
and poisoning (spec/08_check_codes_and_media_faults.md). -/

namespace Sys2Proof.Machine

/-- The engine becomes RUNNING and the Chain Unit reads the header at the chain start (R96, R153,
R154). -/
def State.enterRunning (s : State) : State :=
  ({ s with
    ec := { s.ec with engine := .running }
    cu := { s.cu with phase := .header, nextAddr := some s.cu.chainStart } } :
    State).statusUpdate.readHeader

/-- The end of the sweep: uninterrupted it sets the identity and runs; after STOP or ABANDON the
engine becomes READY (R154, R155, R161). STATE is raised either way (R171). -/
def State.endSweep (s : State) : State :=
  let s' := { s with ec := { s.ec with sweep := { s.ec.sweep with phase := .idle } } }
  if s.ec.ending == .none then
    ({ s' with ec := { s'.ec with identity := some ⟨s.tl.size, s.tl.seed⟩ } } :
      State).enterRunning.raise causeState
  else
    ({ s' with ec := { s'.ec with engine := .ready, ending := .none } } :
      State).statusUpdate.raise causeState

/-- In DRAINING the sweep ends when its outstanding count reaches 0 (R154). -/
def State.checkSweepEnd (s : State) : State :=
  if s.ec.sweep.phase == .draining && s.ec.sweep.outstanding == 0 then s.endSweep else s

/-- One of the sweep's writes has ended (R154). -/
def State.sweepWriteEnded (s : State) : State :=
  ({ s with ec := { s.ec with sweep :=
    { s.ec.sweep with outstanding := s.ec.sweep.outstanding - 1 } } } : State).checkSweepEnd

/-! ## Poisoning (R141, R142, R144) -/

/-- Whether a bucket is in the poison list. -/
def State.listed (s : State) (b : Bucket) : Bool := s.bc.poison.any fun e => e.bucket == b

/-- A poisoning: listed at the tail, or the overflow flag; counted and reported (R141, R144). -/
def State.poisonBucket (s : State) (b : Bucket) (reason : PoisonReason) : State :=
  let bc := if s.bc.poison.length < Config.poisonLimit then
      { s.bc with poison := s.bc.poison ++ [⟨b, reason⟩] }
    else { s.bc with overflow := true }
  (({ s with bc := bc } : State).count fun c =>
    { c with poisonings := c.poisonings + 1 }).statusUpdate.raise causePoison

/-- A bucket leaves the poison list, if it is listed; the change is reported (R142, R144). -/
def State.unlist (s : State) (b : Bucket) : State :=
  if s.listed b then
    ({ s with bc := { s.bc with poison := s.bc.poison.filter fun e => e.bucket != b } } :
      State).statusUpdate
  else s

/-! ## The discard (R61) -/

/-- Whether the cache is discarding its lines for a clearing START (R61). -/
def State.discarding (s : State) : Bool := s.ec.sweep.phase == .discard

/-- Whether every line is FREE. -/
def State.allLinesFree (s : State) : Bool :=
  s.bc.sets.all fun c => c.lines.all fun l => l.state == .free

/-- The cache's report that every line is FREE: the sweep begins to write, or ends if it was
interrupted (R61, R154, R155). -/
def State.checkDiscard (s : State) : State :=
  if s.discarding && s.allLinesFree then
    if s.ec.ending == .none then
      ({ s with ec := { s.ec with sweep := { s.ec.sweep with phase := .writing, next := 0 } } } :
        State).continueSweep
    else s.endSweep
  else s

/-- Every CLEAN or DIRTY line of a set becomes FREE (R61). -/
def CacheSet.discard (c : CacheSet) : CacheSet :=
  { c with lines := c.lines.map fun l =>
      if l.state == .clean || l.state == .dirty then .empty else l }

end Sys2Proof.Machine
end

