-- ==== Sys2Proof/Machine/Cache.lean ====
section
/-! DEFINITION. The Bucket Cache (spec/03_the_bucket_cache.md and
spec/04_write_policies_castout_and_flush.md): visits, misses, allocation, castout and claims, rescue,
steps on a line, write policies, completions and failures, the flush sweep. An operation answers the
state and the consequences other blocks take in the same event. -/

namespace Sys2Proof.Machine

/-! ## Sets and lines -/

/-- The set of a bucket (R41). -/
def setOf (b : Bucket) : SetId := ⟨b % 128, Nat.mod_lt _ (by decide)⟩

/-- The way of the set whose line is tagged with `b` (R45). -/
def CacheSet.find (c : CacheSet) (b : Bucket) : Option Way :=
  allWays.find? fun w => c.lines[w].tag == some b

/-- The claim slot: the way of the set's claimed line (R44). -/
def CacheSet.claimed (c : CacheSet) : Option Way :=
  allWays.find? fun w => c.lines[w].claim.isSome

/-- Eligible: empty queue, empty write lists, no claim (R50). -/
def Line.eligible (l : Line) : Bool :=
  l.waiters.isEmpty && l.current.isEmpty && l.next.isEmpty && l.claim.isNone

/-- The choice of R49: a FREE line, the least recent eligible CLEAN line, or, with no line claimed,
the least recent eligible DIRTY line. -/
def CacheSet.choose (c : CacheSet) : LineChoice :=
  match allWays.find? fun w => c.lines[w].state == .free with
  | some w => .allocate w
  | none =>
    match c.order.find? fun w => c.lines[w].state == .clean && c.lines[w].eligible with
    | some w => .allocate w
    | none =>
      if c.claimed.isSome then .nothing
      else
        match c.order.find? fun w => c.lines[w].state == .dirty && c.lines[w].eligible with
        | some w => .castout w
        | none => .nothing

/-- Way `w` becomes the most recent of its set (R48). -/
def State.touch (s : State) (i : SetId) (w : Way) : State :=
  s.putSet i { s.cacheSet i with order := (s.cacheSet i).order.filter (· != w) ++ [w] }

/-- Replaces the wait list of set `i`. -/
def State.setWaiting (s : State) (i : SetId) (l : List SlotId) : State :=
  s.putSet i { s.cacheSet i with waiting := l }

/-- The bucket of request `k`'s present visit. -/
def State.visitBucket (s : State) (k : SlotId) : Bucket :=
  ((s.slot k).context.map Context.bucket).getD 0

/-- Whether request `k` is a RAW_WRITE or REPAIR, which needs no fill (R59). -/
def State.needsNoFill (s : State) (k : SlotId) : Bool :=
  ((s.slot k).context.map fun c => c.request.kind.replacesImage).getD false

/-- Whether the set's claim slot names a line claimed for bucket `b` (R49, R56). -/
def State.claimedFor (s : State) (i : SetId) (b : Bucket) : Bool :=
  match (s.cacheSet i).claimed with
  | some w =>
    match (s.line i w).claim with
    | some k => s.visitBucket k == b
    | none => false
  | none => false

/-- The fills counter rises by one (R77). -/
def State.countFill (s : State) : State := s.count fun c => { c with fills := c.fills + 1 }

/-- The castouts counter rises by one (R77). -/
def State.countCastout (s : State) : State := s.count fun c => { c with castouts := c.castouts + 1 }

/-- The through-writes counter rises by one (R77). -/
def State.countThrough (s : State) : State :=
  s.count fun c => { c with throughWrites := c.throughWrites + 1 }

/-- A line hands over a write of its image as it stands (R68). -/
def State.handLineWrite (s : State) (i : SetId) (w : Way) : State :=
  s.handOver ⟨.bucket ((s.line i w).tag.getD 0), .write (s.line i w).image, .line i w⟩

/-! ## The treatment of a modification (R65 to R67) -/

/-- Whether a final modifying step takes the through treatment (R65, R66). -/
def State.throughTreatment (s : State) (kind : Kind) (b : Bucket) : Bool :=
  match kind with
  | .repair => true
  | _ =>
    match s.bc.policy with
    | .through => true
    | .back => false
    | .adaptive => s.openRow b

/-- The back column of R67. -/
def LineState.afterBack : LineState → LineState
  | .clean | .dirty => .dirty
  | .writing | .rewrite => .rewrite
  | x => x

/-- The line takes a modification by the back treatment (R67). -/
def State.modifyBack (s : State) (i : SetId) (w : Way) (im : Image) : State :=
  s.modifyLine i w fun l => { l with image := im, state := l.state.afterBack }

/-- The line takes a modification of request `k` by the through treatment (R67): a write now, or the
next-write list while one is in flight. -/
def State.modifyThrough (s : State) (i : SetId) (w : Way) (k : SlotId) (im : Image) : State :=
  match (s.line i w).state with
  | .clean | .dirty =>
    let s' := s.modifyLine i w fun l =>
      { l with image := im, state := .writing, current := l.current ++ [k] }
    s'.countThrough.handLineWrite i w
  | _ =>
    s.modifyLine i w fun l =>
      { l with image := im, state := .rewrite, next := l.next ++ [k] }

/-! ## Steps on a line (R20, R47) -/

/-- The store of a RAW_READ begins (R87): STORING, its write issued or waiting for a stall's end;
under ABANDON the slot is FREE at its step (R91). -/
def State.startStore (s : State) (k : SlotId) : State :=
  if s.abandoning then (s.freeSlot k).settleStop
  else
    let x := s.slot k
    let r := (x.request.map Request.operand).getD 0
    let im := (x.context.bind Context.image).getD .zero
    if s.mayIssue then
      (s.setSlot k { x with state := .storing, transfer := .outstanding }).issueWrite
        (.bufferWrite k) r im.bytes
    else s.setSlot k { x with state := .storing, transfer := .waiting }

/-- What follows a step for its request and its line (R20, R65, R67). -/
def State.applyStep (s : State) (i : SetId) (w : Way) (k : SlotId) (kind : Kind) (out : StepResult) :
    State × List Task :=
  match out.ending with
  | .goOn => (if out.modifying then s.modifyBack i w out.image else s, [.arrive k])
  | .store => (s.startStore k, [])
  | .final r =>
    if !out.modifying then (s, [.finish k r])
    else if s.throughTreatment kind ((s.line i w).tag.getD 0) then
      ((s.modifyThrough i w k out.image).modifySlot k fun x =>
        { x with state := .awaitingWrite, result := some r }, [])
    else (s.modifyBack i w out.image, [.finish k r])

/-- The step of request `k` executes on line `w` of set `i`, which becomes the most recent (R47,
R48). A RAW_WRITE or REPAIR unlists its bucket in the step (R37, R38). -/
def State.stepOn (s : State) (i : SetId) (w : Way) (k : SlotId) : State × List Task :=
  match (s.slot k).context with
  | some c =>
    let out := tableStep c (s.line i w).image
    let s' := if c.request.kind.replacesImage then s.unlist c.bucket else s
    ((s'.modifySlot k fun x => { x with context := some out.context }).touch i w).applyStep i w k
      c.request.kind out
  | none => (s, [])

/-! ## Allocation, castout, refusal (R49 to R53, R59, R60) -/

/-- A line tagged with `b` and FILLING, with these waiters (R51). -/
def Line.filling (b : Bucket) (waiters : List SlotId) : Line :=
  { Line.empty with state := .filling, tag := some b, waiters := waiters }

/-- Allocation to a miss, or the retag of a claimed line (R51, R53, R57): FILLING, with `k` as first
waiter and the waiting requests for `b` behind it; a fill is counted and handed over. -/
def State.allocateFill (s : State) (i : SetId) (w : Way) (k : SlotId) (b : Bucket) : State :=
  let same := (s.cacheSet i).waiting.filter fun j => s.visitBucket j == b
  let rest := (s.cacheSet i).waiting.filter fun j => s.visitBucket j != b
  let s' := ((s.setLine i w (.filling b (k :: same))).touch i w).setWaiting i rest
  s'.countFill.handOver ⟨.bucket b, .read, .line i w⟩

/-- Allocation without fill (R59): the bucket is unlisted, the line tagged and made most recent, and
the request's step executes on it as on a CLEAN line. -/
def State.allocateWhole (s : State) (i : SetId) (w : Way) (k : SlotId) (b : Bucket) :
    State × List Task :=
  (((s.unlist b).setLine i w { Line.empty with state := .clean, tag := some b }).touch i w).stepOn
    i w k

/-- The line `w` is given to request `k`, with or without a fill (R51, R59). -/
def State.allocate (s : State) (i : SetId) (w : Way) (k : SlotId) : State × List Task :=
  if s.needsNoFill k then s.allocateWhole i w k (s.visitBucket k)
  else (s.allocateFill i w k (s.visitBucket k), [])

/-- A castout: the DIRTY line becomes WRITING, claimed for request `k` (R52, R77). -/
def State.castout (s : State) (i : SetId) (w : Way) (k : SlotId) : State :=
  let s' := s.modifyLine i w fun l => { l with state := .writing, claim := some k }
  s'.countCastout.handLineWrite i w

/-- Cases 1 to 3 of R49 for request `k`; `none` when nothing is usable. -/
def State.takeLine (s : State) (k : SlotId) : Option (State × List Task) :=
  let i := setOf (s.visitBucket k)
  match (s.cacheSet i).choose with
  | .allocate w => some (s.allocate i w k)
  | .castout w => some (s.castout i w k, [])
  | .nothing => none

/-- The request joins the tail of its set's wait list (R49). -/
def State.joinWaiting (s : State) (k : SlotId) : State :=
  let i := setOf (s.visitBucket k)
  s.setWaiting i ((s.cacheSet i).waiting ++ [k])

/-- The request takes a line or joins the wait list, which it may do only when nothing is ahead of it
(R49). -/
def State.obtainLine (s : State) (k : SlotId) : State × List Task :=
  let b := s.visitBucket k
  if s.claimedFor (setOf b) b || !(s.cacheSet (setOf b)).waiting.isEmpty then (s.joinWaiting k, [])
  else (s.takeLine k).getD (s.joinWaiting k, [])

/-- A former claimant chooses again; it finds a line or stands at the head of the list (R58). -/
def State.rechoose (s : State) (k : SlotId) : State × List Task :=
  let i := setOf (s.visitBucket k)
  (s.takeLine k).getD (s.setWaiting i (k :: (s.cacheSet i).waiting), [])

/-- A refused visit (R21, R60). -/
def State.refuseVisit (s : State) (k : SlotId) : State × List Task :=
  match (s.slot k).context with
  | some c =>
    if c.visit == .two && c.reserved then
      let c' : Context := { c with visit := .three, pendingResult := some (.bare .poisoned) }
      (s.modifySlot k fun x => { x with context := some c' }, [.arrive k])
    else (s, [.finish k (.bare .poisoned)])
  | none => (s, [])

/-! ## Arrival of a visit (R45, R46, R58, R59) -/

/-- The visit joins the queue of the line tagged with its bucket; if the line is claimed this is a
rescue hit: the claim is withdrawn, the former claimant chooses again, then the list retries (R46,
R58). -/
def State.hit (s : State) (i : SetId) (w : Way) (k : SlotId) : State × List Task :=
  let s' := s.modifyLine i w fun l => { l with waiters := l.waiters ++ [k], claim := none }
  match (s.line i w).claim with
  | some c => (s', [.rechoose c, .retry i])
  | none => (s', [])

/-- The arrival of a visit that uses the stored image (R45, R49). -/
def State.arriveOrdinary (s : State) (k : SlotId) : State × List Task :=
  let b := s.visitBucket k
  match (s.cacheSet (setOf b)).find b with
  | some w => s.hit (setOf b) w k
  | none => if s.listed b then (s, [.refuse k]) else s.obtainLine k

/-- The arrival of a RAW_WRITE (R59). -/
def State.arriveRawWrite (s : State) (k : SlotId) : State × List Task :=
  let b := s.visitBucket k
  match (s.cacheSet (setOf b)).find b with
  | some w => s.hit (setOf b) w k
  | none => s.obtainLine k

/-- The arrival of a REPAIR: NOT_LISTED unless its bucket is listed (R39, R59). -/
def State.arriveRepair (s : State) (k : SlotId) : State × List Task :=
  if s.listed (s.visitBucket k) then s.obtainLine k else (s, [.finish k (.bare .notListed)])

/-- The arrival of a visit at the cache. -/
def State.arriveVisit (s : State) (k : SlotId) : State × List Task :=
  match (s.slot k).context with
  | some c =>
    match c.request.kind with
    | .rawWrite => s.arriveRawWrite k
    | .repair => s.arriveRepair k
    | _ => s.arriveOrdinary k
  | none => (s, [])

/-! ## Set wait lists (R55, R56) -/

/-- One service of the head of a set wait list (R56). -/
def State.retrySet (s : State) (i : SetId) : State × List Task :=
  match (s.cacheSet i).waiting with
  | [] => (s, [])
  | k :: rest =>
    let b := s.visitBucket k
    if s.claimedFor i b then (s, [])
    else if !s.needsNoFill k && s.listed b then (s.setWaiting i rest, [.refuse k, .retry i])
    else
      match (s.setWaiting i rest).takeLine k with
      | some (s', tasks) => (s', tasks ++ [.retry i])
      | none => (s, [])

/-! ## Completions and failures (R54, R57, R61, R70 to R73, R138, R139) -/

/-- The release of a line's current-write list: each request in list order (R70, R71). -/
def State.releaseList (s : State) (i : SetId) (w : Way) : List Task :=
  (s.line i w).current.map (.leaveList i w)

/-- A request leaves the current-write list and finishes with the result its step recorded (R70, R71). That
the visits which its finishing dispatches arrive before the next request leaves the list is the model's
choice (log entry 7). -/
def State.leaveWriteList (s : State) (i : SetId) (w : Way) (k : SlotId) : State × List Task :=
  (s.modifyLine i w fun l => { l with current := l.current.filter (· != k) },
    [.finish k ((s.slot k).result.getD (.bare .done))])

/-- A list of requests ends POISONED (R73). -/
def poisonList (l : List SlotId) : List Task := l.map fun k => .finish k (.bare .poisoned)

/-- A fill completion with good data (R54). -/
def State.fillCompleted (s : State) (i : SetId) (w : Way) (im : Image) : State × List Task :=
  if (s.line i w).state == .filling then
    (s.modifyLine i w fun l => { l with state := .clean, image := im }, [])
  else (s, [])

/-- A fill failure (R60, R138). That the visits which the end of a refused request dispatches, by the key
guard or the fence hold, and the visits 3 of refused requests, arrive before the next waiter is refused
and before the set wait list retries is the model's choice (log entry 7). -/
def State.fillFailed (s : State) (i : SetId) (w : Way) : State × List Task :=
  let l := s.line i w
  if l.state == .filling then
    ((s.poisonBucket (l.tag.getD 0) .read).setLine i w .empty,
      l.waiters.map .refuse ++ [.retry i, .flushCheck])
  else (s, [])

/-- The completion of a castout write: the line is retagged for its claimant (R57, R72). -/
def State.castoutCompleted (s : State) (i : SetId) (w : Way) (k : SlotId) : State × List Task :=
  let (s', tasks) := (s.modifyLine i w fun l => { l with claim := none }).allocate i w k
  (s', tasks ++ [.retry i])

/-- The completion of a write on a REWRITE line: it first releases its current-write list, then looks at its
next-write list (R71). -/
def State.rewriteCompleted (s : State) (i : SetId) (w : Way) : State × List Task :=
  (s, s.releaseList i w ++ [.lookNext i w])

/-- A REWRITE line whose current-write list has been released: a new write for the next-write list, a
further one under the flush sweep, or DIRTY (R71, R75). -/
def State.lookAtNext (s : State) (i : SetId) (w : Way) : State × List Task :=
  let l := s.line i w
  if l.state == .rewrite then
    if !l.next.isEmpty then
      let s' := s.setLine i w { l with state := .writing, current := l.next, next := [] }
      (s'.countThrough.handLineWrite i w, [])
    else if s.bc.flush.isSome then
      ((s.setLine i w { l with state := .writing }).handLineWrite i w, [])
    else (s.setLine i w { l with state := .dirty }, [.retry i])
  else (s, [])

/-- The completion of a line's write (R61, R70, R71, R72, R75). That the visits dispatched by the key
guard or the fence hold, as the requests of the write list become finished, arrive before the set wait
list retries is the model's choice (log entry 7). -/
def State.writeCompleted (s : State) (i : SetId) (w : Way) : State × List Task :=
  let l := s.line i w
  if l.state == .writing || l.state == .rewrite then
    if s.discarding then ((s.setLine i w .empty).checkDiscard, [])
    else
      match l.claim with
      | some k => s.castoutCompleted i w k
      | none =>
        if l.state == .writing then
          (s.setLine i w { l with state := .clean }, s.releaseList i w ++ [.retry i, .flushCheck])
        else s.rewriteCompleted i w
  else (s, [])

/-- The failure of a line's write (R60, R61, R73, R139). That the visits which a request's end POISONED
dispatches, by the key guard or the fence hold, and the visits 3 of refused requests, arrive, and may take
the line just freed, before the line's next request is ended or refused, before its claimant chooses and
before the set wait list retries, is the model's choice (log entry 7). -/
def State.writeFailed (s : State) (i : SetId) (w : Way) : State × List Task :=
  let l := s.line i w
  if l.state == .writing || l.state == .rewrite then
    if s.discarding then ((s.setLine i w .empty).checkDiscard, [])
    else
      ((s.poisonBucket (l.tag.getD 0) .write).setLine i w .empty,
        poisonList l.current ++ poisonList l.next ++ l.waiters.map .refuse
          ++ l.claim.toList.map .rechoose ++ [.retry i, .flushCheck])
  else (s, [])

/-! ## STEP_EXECUTION (R47) -/

/-- Whether steps execute in this line state (R43). -/
def LineState.executes : LineState → Bool
  | .clean | .dirty | .writing | .rewrite => true
  | _ => false

/-- The step at the head of a line's waiter queue executes; the request leaves the queue after the
line has taken the modification, and an emptied queue lets the set's list retry (R20, R47, R55). That
the request's own next visit, and the visits its finish releases through the key guard and the fence
hold, come before that retry is the model's choice (log entry 7). -/
def State.executeHead (s : State) (i : SetId) (w : Way) : State × List Task :=
  let l := s.line i w
  match l.waiters with
  | [] => (s, [])
  | k :: rest =>
    if l.state.executes then
      let (s', tasks) := s.stepOn i w k
      (s'.modifyLine i w fun x => { x with waiters := rest },
        tasks ++ if rest.isEmpty then [.retry i] else [])
    else (s, [])

/-! ## The flush sweep (R74, R75) -/

/-- A DIRTY line hands over a flush write (R74). -/
def State.flushLine (s : State) (i : SetId) (w : Way) : State :=
  if (s.line i w).state == .dirty then
    (s.modifyLine i w fun l => { l with state := .writing }).handLineWrite i w
  else s

/-- The lines of the cache in order. -/
def allLines : List (SetId × Way) := allSets.flatMap fun i => allWays.map fun w => (i, w)

/-- The dispatch of FLUSH request `k` starts the sweep (R74). -/
def State.startFlush (s : State) (k : SlotId) : State :=
  allLines.foldl (fun t p => t.flushLine p.1 p.2) { s with bc := { s.bc with flush := some k } }

/-- Whether a line holds work for the flush sweep. -/
def Line.unwritten (l : Line) : Bool :=
  l.state == .dirty || l.state == .writing || l.state == .rewrite

/-- The sweep's examination of the cache: with no line DIRTY, WRITING or REWRITE it ends and the
FLUSH finishes DONE (R75). -/
def State.checkFlush (s : State) : State × List Task :=
  match s.bc.flush with
  | some k =>
    if s.bc.sets.any fun c => c.lines.any Line.unwritten then (s, [])
    else ({ s with bc := { s.bc with flush := none } }, [.finish k (.bare .done)])
  | none => (s, [])

end Sys2Proof.Machine
end

