-- ==== Sys2Proof/Machine/Requests.lean ====
section
/-! DEFINITION. The Request Table (spec/05_requests_ordering_and_the_key_guard.md): consideration, the key
guard, the fence hold, dispatch, finishing, buffer transfers, RESUME and ABANDON. An operation answers
the state and the consequences that follow in the same event. -/

namespace Sys2Proof.Machine

/-! ## Age (R79, R80) -/

/-- A finished request: FINISHED or REPORTING (R79). -/
def SlotState.isFinished : SlotState → Bool
  | .finished | .reporting => true
  | _ => false

/-- The slots older than `k`, oldest first (R80). -/
def State.olderThan (s : State) (k : SlotId) : List SlotId := s.rt.age.takeWhile (· != k)

/-- The consideration point: the oldest slot whose considered mark is clear (R81). -/
def State.considerationPoint (s : State) : Option SlotId :=
  s.rt.age.find? fun k => !(s.slot k).considered

/-! ## The key guard (R83, R84) -/

/-- The states of an unfinished keyed request that passed decode (R83). -/
def SlotState.guards : SlotState → Bool
  | .waitingKey | .visiting | .awaitingWrite => true
  | _ => false

/-- The key of a slot's request, if the request is keyed. -/
def Slot.guardKey (x : Slot) : Option Key :=
  x.request.bind fun r => if r.kind.keyed then some r.key else none

/-- Whether an older unfinished keyed request carries the key (R83). -/
def State.keyHeld (s : State) (k : SlotId) (key : Key) : Bool :=
  (s.olderThan k).any fun j => (s.slot j).state.guards && (s.slot j).guardKey == some key

/-- The oldest slot in WAITING_KEY that carries the key (R84). -/
def State.oldestWaiting (s : State) (key : Key) : Option SlotId :=
  s.rt.age.find? fun j => (s.slot j).state == .waitingKey && (s.slot j).guardKey == some key

/-- What the key guard releases when a request on this key finishes (R84). -/
def State.releaseKey (s : State) (key : Option Key) : List Task :=
  ((key.bind s.oldestWaiting).map Task.dispatch).toList

/-! ## The fence hold (R85, R86) -/

/-- A RAW_WRITE becomes LOADING and its buffer is read, at once or at a stall's end (R86). -/
def State.startLoad (s : State) (k : SlotId) (r : Request) : State :=
  if s.mayIssue then
    (s.modifySlot k fun x => { x with state := .loading, transfer := .outstanding }).issueRead
      (.bufferRead k) r.operand 128
  else s.modifySlot k fun x => { x with state := .loading, transfer := .waiting }

/-- A fencing request sets the hold with itself as owner; it becomes HELD, or LOADING (R85, R86). -/
def State.takeHold (s : State) (k : SlotId) (r : Request) : State :=
  let s' : State := { s with rt := { s.rt with hold := some k } }
  match r.kind with
  | .rawWrite => s'.startLoad k r
  | _ => s'.modifySlot k fun x => { x with state := .held }

/-- The owner is dispatched once every older request is finished (R85); LOADING delays it (R86). -/
def State.checkOwner (s : State) : State × List Task :=
  match s.rt.hold with
  | some k =>
    if (s.slot k).state == .held && (s.olderThan k).all fun j => (s.slot j).state.isFinished then
      (s, [.dispatch k])
    else (s, [])
  | none => (s, [])

/-- The hold is cleared, and with it the considered mark of every HELD slot (R85). -/
def State.clearHold (s : State) : State :=
  { s with rt := { s.rt with
      hold := none
      slots := s.rt.slots.map fun x =>
        if x.state == .held then { x with considered := false } else x } }

/-! ## Consideration (R81) -/

/-- A decoded request goes to the key guard or to the fence hold (R81, R83, R85). -/
def State.letIn (s : State) (k : SlotId) (r : Request) : State × List Task :=
  let s' := s.modifySlot k fun x => { x with request := some r }
  if r.kind.keyed then
    if s.keyHeld k r.key then
      (s'.modifySlot k fun x => { x with state := .waitingKey }, [.consider])
    else (s', [.dispatch k, .consider])
  else (s'.takeHold k r, [.owner, .consider])

/-- The treatment of a slot that is considered (R81). -/
def State.treat (s : State) (k : SlotId) (d : Block64) : State × List Task :=
  if s.rt.hold.isSome then (s.modifySlot k fun x => { x with state := .held }, [.consider])
  else
    match decodeRecord s.tl.size d with
    | some r => s.letIn k r
    | none => (s, [.finish k (.bare .badRequest), .consider])

/-- Consideration of the slot at the point, if its record has arrived (R81). -/
def State.considerNext (s : State) : State × List Task :=
  match s.considerationPoint with
  | some k =>
    match (s.slot k).record with
    | some d => (s.modifySlot k fun x => { x with considered := true }).treat k d
    | none => (s, [])
  | none => (s, [])

/-! ## Dispatch (R84, R85) -/

/-- The slot becomes VISITING with its table context; a RAW_WRITE keeps the image it has loaded (R19,
R84, R85). -/
def State.setVisiting (s : State) (k : SlotId) (r : Request) : State :=
  s.modifySlot k fun x =>
    { x with
      state := .visiting
      context := some (x.context.getD (.fresh r s.tl.size s.tl.seed)) }

/-- The dispatch of request `k` (R84, R85). -/
def State.dispatchRequest (s : State) (k : SlotId) : State × List Task :=
  match (s.slot k).request with
  | some r =>
    match r.kind with
    | .fence => (s, [.finish k (.bare .done)])
    | .flush => ((s.setVisiting k r).startFlush k, [.flushCheck])
    | _ => (s.setVisiting k r, [.arrive k])
  | none => (s, [])

/-! ## Finishing (R84, R85, R88, R91) -/

/-- A FINISHED slot's result write issues, or waits for a stall's end (R88). -/
def State.reportResult (s : State) (k : SlotId) : State :=
  if s.mayIssue then s.issueResult k
  else { s with rt := { s.rt with unreported := s.rt.unreported ++ [k] } }

/-- The slot of a request that becomes finished: FINISHED with its result, or, under ABANDON, FREE
without a result write (R79, R88, R91). That the table context ends here, not when the result is recorded
and not when the slot is freed, is the model's choice (log entry 11). -/
def State.finishSlot (s : State) (k : SlotId) (r : Result) : State :=
  if s.abandoning then (s.freeSlot k).settleStop
  else
    let done := s.modifySlot k fun x =>
      { x with state := .finished, result := some r, context := none, transfer := .none }
    done.reportResult k

/-- A request becomes finished: its slot, the key guard's release, and the fence hold (R84, R85). -/
def State.finishRequest (s : State) (k : SlotId) (r : Result) : State × List Task :=
  let s' := s.finishSlot k r
  if s.rt.hold == some k then (s'.clearHold, [.consider])
  else (s', s'.releaseKey (s.slot k).guardKey ++ [.owner])

/-! ## Buffer transfers (R86, R87, R89) -/

/-- The image of a RAW_WRITE arrives in its context, and the slot becomes HELD (R86). -/
def State.loadArrived (s : State) (k : SlotId) (d : Block128) : State :=
  s.modifySlot k fun x =>
    { x with
      state := .held
      transfer := .done
      context := x.request.map fun r =>
        { Context.fresh r s.tl.size s.tl.seed with image := some (Image.ofBits d) } }

/-- Issues a buffer transfer that waited through the stall (R86, R87, R89). -/
def State.issueTransfer (s : State) (k : SlotId) : State :=
  let x := s.slot k
  let addr := (x.request.map Request.operand).getD 0
  if x.transfer == .waiting then
    let s' := s.setSlot k { x with transfer := .outstanding }
    if x.state == .loading then s'.issueRead (.bufferRead k) addr 128
    else s'.issueWrite (.bufferWrite k) addr ((x.context.bind Context.image).getD .zero).bytes
  else s

/-- The slot a buffer access belongs to. -/
def AccessKind.bufferSlot : AccessKind → Option SlotId
  | .bufferRead k | .bufferWrite k => some k
  | _ => none

/-- Marks the buffer transfer of an access's slot. -/
def State.markTransfer (s : State) (a : BusAccess) (t : Transfer) : State :=
  match a.kind.bufferSlot with
  | some k => s.modifySlot k fun x => { x with transfer := t }
  | none => s

/-- The Request Table's part of RESUME: faulted buffer accesses again, then those that waited (R89). -/
def State.resumeTable (s : State) : State :=
  let again := s.rt.faulted.foldl (fun t a => (t.markTransfer a .outstanding).reissue a)
    { s with rt := { s.rt with faulted := [] } }
  s.rt.age.foldl State.issueTransfer again

/-! ## ABANDON (R91) -/

/-- Marks a slot that stays only until its outstanding read ends (R91). -/
def State.discardSlot (s : State) (k : SlotId) : State :=
  s.modifySlot k fun x => { x with discarded := true }

/-- The effect of ABANDON on one slot, by its state (R91). -/
def State.abandonSlot (s : State) (k : SlotId) : State :=
  let x := s.slot k
  match x.state with
  | .free | .visiting | .awaitingWrite => s
  | .waitingKey | .held | .finished => s.freeSlot k
  | .fetching => if s.outstanding (· == .recordRead k) then s.discardSlot k else s.freeSlot k
  | .loading => if x.transfer == .outstanding then s.discardSlot k else s.freeSlot k
  | .storing => if x.transfer == .outstanding then s else s.freeSlot k
  | .reporting => if s.outstanding (· == .resultWrite k) then s else s.freeSlot k

/-- The Request Table's part of ABANDON (R91, R162). -/
def State.abandonTable (s : State) : State :=
  let s' := allSlots.foldl State.abandonSlot s
  { s' with rt := { s'.rt with hold := none, faulted := [], unreported := [] } }

end Sys2Proof.Machine
end

