-- ==== Sys2Proof/Machine/Cascade.lean ====
section
/-! DEFINITION. The consequences of one event, each taken whole before those that stand behind it (log
entries 3 and 7). -/

namespace Sys2Proof.Machine

/-- One consequence: the state after it, and the consequences it has itself. -/
def runTask (t : Task) (s : State) : State × List Task :=
  match t with
  | .arrive k => s.arriveVisit k
  | .refuse k => s.refuseVisit k
  | .finish k r => s.finishRequest k r
  | .dispatch k => s.dispatchRequest k
  | .consider => s.considerNext
  | .owner => s.checkOwner
  | .retry i => s.retrySet i
  | .rechoose k => s.rechoose k
  | .flushCheck => s.checkFlush
  | .lineLost i w => s.writeFailed i w
  | .leaveList i w k => s.leaveWriteList i w k
  | .lookNext i w => s.lookAtNext i w

/-- Takes consequences in order, what each gives rise to before the rest, which is the model's choice where
no rule orders the two (log entry 7); `none` when the bound is spent (log entry 3). -/
def runTasks : Nat → List Task → State → Option State
  | _, [], s => some s
  | 0, _ :: _, _ => none
  | n + 1, t :: ts, s => runTasks n ((runTask t s).2 ++ ts) (runTask t s).1

/-- Settles an event: its consequences, then the status write it may lead to. -/
def settle (p : State × List Task) : Option State :=
  (runTasks Config.cascadeBound p.2 p.1).map State.closeEvent

end Sys2Proof.Machine
end

