-- ==== Sys2Proof/Machine/Sequencer.lean ====
section
/-! DEFINITION. The bring-up sequencer (spec/09_bring_up_clearing_and_table_identity.md): profile, device
reset, mode programming, lane check, size probe, last phase and failure. -/

namespace Sys2Proof.Machine

/-- Moves the sequencer. -/
def State.setSequencer (s : State) (p : SequencerPhase) : State :=
  { s with mc := { s.mc with sequencer := p } }

/-- A command takes the device port. -/
def State.drive (s : State) (c : DeviceCommand) : State :=
  { s with mc := { s.mc with port := some c } }

/-- Bring-up fails (R146): FAILED with its cause, STATE raised, the sequencer stopped and the reset
line released. -/
def State.failBringup (s : State) (cause : FailureCause) : State :=
  ({ s with
    ec := { s.ec with engine := .failed, failureCause := cause }
    mc := { s.mc with sequencer := .idle, resetHeld := false } } : State).statusUpdate.raise
    causeState

/-! ## Device phases (R147) -/

/-- Whether no command or access is in flight at the Memory Controller (R147). -/
def State.nothingInFlight (s : State) : Bool :=
  s.mc.reads.isEmpty && allBanks.all fun b => (s.bank b).queue.isEmpty

/-- The device reset phase: the line held, its timer started, every bank CLOSED with its timers
stopped and its queue empty (R116, R147). -/
def State.beginDeviceReset (s : State) : State :=
  { s with mc := { s.mc with
      banks := Vector.replicate 8 Bank.empty
      idleCandidates := []
      resetHeld := true
      resetHold := s.timer MemoryProfile.resetHold
      sequencer := .resetHold } }

/-- The line is released and the first MODE_GAP runs (R147). -/
def State.endDeviceReset (s : State) : State :=
  { s with mc := { s.mc with
      resetHeld := false, modeGap := s.timer MemoryProfile.modeGap, sequencer := .mode 0 } }

/-- MODE_SET of index `i`; it starts MODE_GAP afresh (R147). -/
def State.modeSet (s : State) (i : Nat) (h : i < 4) : State :=
  let value := (s.mc.profile.map fun p => p.modeWords[i]).getD 0
  let s' := s.drive (.modeSet i value)
  { s' with mc := { s'.mc with
      modeGap := s.timer MemoryProfile.modeGap, sequencer := .mode (i + 1) } }

/-! ## The lane check (R148) -/

/-- PATTERN_READ of index `i` (R148). -/
def State.patternRead (s : State) (i : Nat) : State :=
  let s' := s.drive (.patternRead i)
  { s' with mc := { s'.mc with
      reads := s'.mc.reads ++ [.pattern i false], sequencer := .lanes i } }

/-- The byte expected in lane `k`, beat `j` of pattern `i` (R148). -/
def expectedByte (i j k : Nat) : Byte :=
  match i with
  | 0 => 0x00
  | 1 => 0xFF
  | 2 => if j % 2 = 0 then 0x55 else 0xAA
  | _ => if j % 8 = k then 1#8 <<< k else 0

/-- Whether lane `k` differs from pattern `i` in any of the sixteen beats. -/
def laneFails (i : Nat) (d : Block128) (k : Nat) : Bool :=
  (List.range 16).any fun j => d.extractLsb' (8 * (8 * j + k)) 8 != expectedByte i j k

/-- The lanes that pattern `i` marks (R148). -/
def laneFaults (i : Nat) (d : Block128) : Byte :=
  (List.range 8).foldl (fun m k => if laneFails i d k then m ||| (1#8 <<< k) else m) 0

/-! ## The size probe (R149) -/

/-- The seven accesses of the probe, in order: the row, and the marker of a write. -/
def probeAccesses : List (Nat × Option Marker) :=
  [(16384, some .m14), (8192, some .m13), (4096, some .m12), (0, some .m0), (4096, none),
    (8192, none), (16384, none)]

/-- Hands over access `i` of the probe: bank 0, column slot 0 (R131, R149). -/
def State.handProbe (s : State) (i : Nat) (found : List (Option Marker)) : State :=
  match probeAccesses[i]? with
  | some (row, marker) =>
    let direction := match marker with
      | some m => Direction.write m.image
      | none => .read
    (s.setSequencer (.probe i found)).handOver ⟨.direct 0 row 0, direction, .bringup⟩
  | none => s

/-- The row count that the three results give, if they match a line of the table (R149). -/
def detectedRows : List (Option Marker) → Option Nat
  | [some .m0, some .m0, some .m0] => some 4096
  | [some .m12, some .m0, some .m0] => some 8192
  | [some .m12, some .m13, some .m0] => some 16384
  | [some .m12, some .m13, some .m14] => some 32768
  | _ => none

/-- The last phase of bring-up, in one event (R150, R128, R142). -/
def State.finishBringup (s : State) (rows : Nat) : State :=
  ({ s with
    mc := { s.mc with
      rows := some rows, owed := 0, committed := false, refreshRunning := true,
      refreshPeriod := s.timer MemoryProfile.refreshPeriod, sequencer := .idle }
    bc := { s.bc with poison := [], overflow := false }
    ec := { s.ec with identity := none, counters := .zero, engine := .ready } } :
    State).statusUpdate.raise causeState

/-- The three read results are judged (R149). -/
def State.judgeProbe (s : State) (found : List (Option Marker)) : State :=
  match detectedRows found with
  | some rows => s.finishBringup rows
  | none => s.failBringup .size

/-- A write of the probe has completed: the next access is handed over (R149). -/
def State.probeWritten (s : State) : State :=
  match s.mc.sequencer with
  | .probe i found => s.handProbe (i + 1) found
  | _ => s

/-- A read of the probe has passed its check: it is named, and the next access is handed over or the
results are judged (R149). -/
def State.probeRead (s : State) (im : Image) : State :=
  match s.mc.sequencer with
  | .probe i found =>
    let found' := found ++ [Marker.ofImage im]
    if i = 6 then s.judgeProbe found' else s.handProbe (i + 1) found'
  | _ => s

/-- A pattern's data has arrived: failing lanes are marked; the next PATTERN_READ issues, or after the
fourth the lanes are judged (R148). -/
def State.patternArrived (s : State) (i : Nat) (d : Block128) : State :=
  let s' : State := { s with mc := { s.mc with laneFaults := s.mc.laneFaults ||| laneFaults i d } }
  if i < 3 then s'.patternRead (i + 1)
  else if s'.mc.laneFaults = 0 then s'.handProbe 0 []
  else s'.failBringup .lanes

end Sys2Proof.Machine
end

