-- ==== Sys2Proof/Machine/Arbiter.lean ====
section
/-! DEFINITION. The command arbiter (spec/07_table_memory_controller.md, R114, R121 to R126, R129, R132):
the gates of each command, the seven classes, and what each command does as it issues. -/

namespace Sys2Proof.Machine

/-- A command the arbiter can choose; `column` names the access whose column command it is. -/
inductive Choice where
  | closeAll
  | refresh
  | column (bank : BankId) (age : Nat)
  | close (bank : BankId)
  | openRow (bank : BankId) (row : Nat)
  deriving DecidableEq, Repr

/-! ## Gates (R114, R117, R118) -/

/-- The row a bank has OPEN. -/
def Bank.rowOpen (x : Bank) : Option Nat :=
  match x.state with
  | .opened r => some r
  | _ => none

/-- Whether a bank is OPENING. -/
def Bank.isOpening (x : Bank) : Bool :=
  match x.state with
  | .opening _ => true
  | _ => false

/-- CLOSE may act on the bank: OPEN, HOLD_MIN expired. -/
def State.canClose (s : State) (b : BankId) : Bool :=
  (s.bank b).rowOpen.isSome && !(s.bank b).holdMin.isRunning

/-- CLOSE_ALL may issue: some bank OPEN, none OPENING, HOLD_MIN expired at every OPEN bank. -/
def State.canCloseAll (s : State) : Bool :=
  allBanks.any (fun b => (s.bank b).rowOpen.isSome)
    && allBanks.all fun b =>
      !(s.bank b).isOpening && ((s.bank b).rowOpen.isNone || s.canClose b)

/-- OPEN may issue: bank CLOSED, no refresh committed, no drain after an engine reset (R129, R132). -/
def State.canOpen (s : State) (b : BankId) : Bool :=
  (s.bank b).state == .closed && !s.mc.committed && s.mc.accepting

/-- Whether any UNISSUED access of the bank other than this one needs its row (R125). -/
def State.rowWanted (s : State) (b : BankId) (a : Access) : Bool :=
  (s.bank b).unissued.any fun c => c.age != a.age && c.body.place.row == a.body.place.row

/-- Whether a column command takes its closing form (R125). -/
def State.closingForm (s : State) (b : BankId) (a : Access) : Bool :=
  (s.mc.profile.map MemoryProfile.closePolicy) == some .closeEarly && !s.rowWanted b a

/-- Whether an UNISSUED access ahead of this one has been overtaken 8 times, so that this one may not
pass it (R123). -/
def State.barred (s : State) (b : BankId) (a : Access) : Bool :=
  ((s.bank b).queue.takeWhile fun c => c.age != a.age).any fun c =>
    !c.issued && c.overtaken == Config.overtakenLimit

/-- The column command of an access has all its gates open (R114, R118, R123, R125). -/
def State.canColumn (s : State) (b : BankId) (a : Access) : Bool :=
  let g := groupOf b
  (s.bank b).rowOpen == some a.body.place.row
    && !s.mc.near[g].isRunning && !s.mc.far[g].isRunning
    && (a.body.direction.isWrite || !s.mc.turnGap.isRunning)
    && !s.barred b a
    && (!s.closingForm b a || !(s.bank b).holdMin.isRunning)

/-! ## Choices (R121, R122) -/

/-- The next command of an access, if its gates are open (R121). -/
def State.nextCommand (s : State) (b : BankId) (a : Access) : Option Choice :=
  match (s.bank b).state with
  | .opened r =>
    if r = a.body.place.row then
      if s.canColumn b a then some (.column b a.age) else none
    else if s.canClose b then some (.close b) else none
  | .closed => if s.canOpen b then some (.openRow b a.body.place.row) else none
  | _ => none

/-- The older of two candidates, each with the age it stands for. -/
def older (x y : Option (Nat × Choice)) : Option (Nat × Choice) :=
  match x, y with
  | none, y => y
  | x, none => x
  | some p, some q => if q.1 < p.1 then some q else some p

/-- The candidate of the oldest access among the banks (R122: between banks the choice is by age). -/
def oldestOf (f : BankId → Option (Nat × Choice)) : Option Choice :=
  ((allBanks.map f).foldl older none).map Prod.snd

/-- Class 1: the refresh work of a committed refresh (R129); beside it the CLOSE_ALL of the drain
after an engine reset (R132; log entry 18). -/
def State.classOne (s : State) : Option Choice :=
  if (s.mc.committed || !s.mc.accepting) && s.canCloseAll then some .closeAll
  else if s.mc.committed && allBanks.all fun b => (s.bank b).state == .closed then some .refresh
  else none

/-- Class 2 at one bank: of its accesses that were overtaken 8 times, the next command of the first in
queue order whose next command has its gates open. -/
def State.classTwoAt (s : State) (b : BankId) : Option (Nat × Choice) :=
  (s.bank b).unissued.findSome? fun a =>
    if a.overtaken == Config.overtakenLimit then (s.nextCommand b a).map fun c => (a.age, c)
    else none

/-- Class 3 at one bank: the row hit, first in queue order, whose gates are open. -/
def State.classThreeAt (s : State) (b : BankId) : Option (Nat × Choice) :=
  ((s.bank b).unissued.find? fun a => s.canColumn b a).map fun a => (a.age, .column b a.age)

/-- Class 4 at one bank: the conflict close (R124). -/
def State.classFourAt (s : State) (b : BankId) : Option (Nat × Choice) :=
  match (s.bank b).unissued, (s.bank b).rowOpen with
  | a :: rest, some r =>
    if s.canClose b && (a :: rest).all fun c => c.body.place.row != r then some (a.age, .close b)
    else none
  | _, _ => none

/-- Class 5 at one bank: the open for its oldest UNISSUED access. -/
def State.classFiveAt (s : State) (b : BankId) : Option (Nat × Choice) :=
  match (s.bank b).unissued with
  | a :: _ => if s.canOpen b then some (a.age, .openRow b a.body.place.row) else none
  | [] => none

/-- Class 6: the candidate for an idle close that expired first (R126). -/
def State.classSix (s : State) : Option Choice :=
  (s.mc.idleCandidates.find? s.canClose).map .close

/-- The choice of classes 1 to 6 (R122). -/
def State.choose (s : State) : Option Choice :=
  s.classOne.or <| (oldestOf s.classTwoAt).or <| (oldestOf s.classThreeAt).or <|
    (oldestOf s.classFourAt).or <| (oldestOf s.classFiveAt).or s.classSix

/-- Class 7: a refresh is owed, none is committed, and no UNISSUED access is in any queue (R122). -/
def State.mayCommit (s : State) : Bool :=
  1 ≤ s.mc.owed && !s.mc.committed && allBanks.all fun b => (s.bank b).unissued.isEmpty

/-! ## Effects (R114) -/

/-- A bank begins to close; its IDLE_CLOSE timer and candidacy are dropped (R114, R126). -/
def State.closeBank (s : State) (b : BankId) : State :=
  let s' := s.modifyBank b fun x =>
    { x with
      state := .closing, closeWait := s.timer MemoryProfile.closeWait, idleClose := .stopped }
  { s' with mc := { s'.mc with idleCandidates := s'.mc.idleCandidates.filter (· != b) } }

/-- CLOSE_ALL: every OPEN bank begins to close. -/
def State.closeOpenBanks (s : State) : State :=
  allBanks.foldl (fun t b => if (t.bank b).rowOpen.isSome then t.closeBank b else t) s

/-- OPEN: the bank is OPENING, with OPEN_WAIT and HOLD_MIN running. -/
def State.openBank (s : State) (b : BankId) (row : Nat) : State :=
  s.modifyBank b fun x =>
    { x with
      state := .opening row
      openWait := s.timer MemoryProfile.openWait
      holdMin := s.timer MemoryProfile.holdMin }

/-- REFRESH: every bank is REFRESHING, with REFRESH_WAIT running. -/
def State.refreshBanks (s : State) : State :=
  let s' := allBanks.foldl (fun t b => t.modifyBank b fun x => { x with state := .refreshing }) s
  { s' with mc := { s'.mc with refreshWait := s.timer MemoryProfile.refreshWait } }

/-- The queue as the column command of the access of this age leaves it: every UNISSUED access ahead
of it overtaken once more, itself ISSUED (R121, R123). -/
def issuedQueue (age : Nat) (alert : Timer) : List Access → List Access
  | [] => []
  | a :: rest =>
    if a.age = age then { a with issued := true, alert := alert } :: rest
    else (if a.issued then a else { a with overtaken := a.overtaken + 1 }) ::
      issuedQueue age alert rest

/-- The timers a column command starts: near of its group, far of the other, and TURN_GAP after a
write (R118). -/
def State.startGaps (s : State) (g : GroupId) (isWrite : Bool) : State :=
  { s with mc := { s.mc with
      near := s.mc.near.set g (s.timer MemoryProfile.gapNear)
      far := s.mc.far.set (otherGroup g) (s.timer MemoryProfile.gapFar)
      turnGap := if isWrite then s.timer MemoryProfile.turnGap else s.mc.turnGap } }

/-- The column command of an access, with the image of a write and its check word (R114, R134). -/
def columnCommand (b : BankId) (a : Access) (closing : Bool) : DeviceCommand :=
  let col := a.body.place.col
  match a.body.direction with
  | .read => if closing then .readClose b col else .read b col
  | .write im => if closing then .writeClose b col im.sealed else .write b col im.sealed

/-- The access becomes ISSUED: those ahead of it are overtaken, and a read's data is awaited (R115,
R121, R123). -/
def State.markIssued (s : State) (b : BankId) (a : Access) : State :=
  let alert := if a.body.direction.isWrite then s.timer MemoryProfile.alertWait else .stopped
  let s' := s.modifyBank b fun x => { x with queue := issuedQueue a.age alert x.queue }
  if a.body.direction.isWrite then s'
  else { s' with mc := { s'.mc with reads := s'.mc.reads ++ [.access b a.age] } }

/-- A column command issues (R114, R118, R123, R125, R126). -/
def State.issueColumn (s : State) (b : BankId) (a : Access) : State :=
  let closing := s.closingForm b a
  let s' := ((s.markIssued b a).startGaps (groupOf b) a.body.direction.isWrite).drive
    (columnCommand b a closing)
  if closing then s'.closeBank b else s'.fallIdle b

/-- The chosen command issues. -/
def State.issueChoice (s : State) (c : Choice) : State :=
  match c with
  | .closeAll => s.closeOpenBanks.drive .closeAll
  | .refresh => s.refreshBanks.drive .refresh
  | .close b => (s.closeBank b).drive (.close b)
  | .openRow b r => (s.openBank b r).drive (.openRow b r)
  | .column b age =>
    match s.queued b age with
    | some a => s.issueColumn b a
    | none => s

/-- One moment at which the port is free (R122): the choice of classes 1 to 6, or class 7's
commitment and the choice after it. -/
def State.arbitrate (s : State) : State :=
  match s.choose with
  | some c => s.issueChoice c
  | none =>
    if s.mayCommit then
      let s' : State := { s with mc := { s.mc with committed := true } }
      (s'.choose.map s'.issueChoice).getD s'
    else s

end Sys2Proof.Machine
end

