-- ==== Sys2Proof/Machine/Control.lean ====
section
/-! DEFINITION. The Engine Control's commands (spec/10_engine_control_status_and_interrupts.md, R159 to
R165; spec/09_bring_up_clearing_and_table_identity.md, R145, R152, R155) and the register writes (R166,
R172, R174), as operations on the state. -/

namespace Sys2Proof.Machine

/-- An illegal command: its code is recorded, and the change is a status update (R159). -/
def State.illegal (s : State) (code : Byte) : State :=
  ({ s with ec := { s.ec with refusedCommand := some code } } : State).statusUpdate

/-! ## BRINGUP and START (R145, R152) -/

/-- BRINGUP is taken: PROBING, and the Memory Controller drops profile and rows (R145). -/
def State.enterProbing (s : State) : State :=
  ({ s with
    ec := { s.ec with engine := .probing, failureCause := .none }
    mc := { s.mc with profile := none, rows := none, laneFaults := 0 } } : State).statusUpdate

/-- The read of the memory profile, or the failure of a misaligned setup address (R145). -/
def State.readMemoryProfile (s : State) : State :=
  if aligned64 s.setupAddr then
    (s.setSequencer (.profile s.bi.nextTag)).issueRead .memoryProfileRead s.setupAddr 64
  else s.failBringup .profile

/-- BRINGUP (R145, R159). -/
def State.bringup (s : State) : State :=
  if s.ec.engine == .cold || s.ec.engine == .failed then s.enterProbing.readMemoryProfile
  else s.illegal 1

/-- START is refused with a cause (R152). -/
def State.refuseStart (s : State) (cause : RefusalCause) : State :=
  ({ s with ec := { s.ec with refusalCause := cause, startRead := none } } : State).statusUpdate.raise
    causeState

/-- The read of the table profile, or the refusal of a misaligned setup address (R152). -/
def State.readTableProfile (s : State) : State :=
  if aligned64 s.setupAddr then
    ({ s with ec := { s.ec with startRead := some s.bi.nextTag } } : State).issueRead
      .tableProfileRead (s.setupAddr + 64) 64
  else s.refuseStart .profile

/-- START: taken in READY while no START waits for its profile and no earlier START's profile read is
outstanding, and illegal otherwise (R152, R159). -/
def State.start (s : State) : State :=
  if s.ec.engine == .ready && s.ec.startRead.isNone && !s.readsTableProfile then s.readTableProfile
  else s.illegal 2

/-- What an accepted START gives the blocks (R153, R96). -/
def State.takeProfile (s : State) (p : TableProfile) : State :=
  { s with
    tl := { size := p.size, seed := p.seed }
    bc := { s.bc with policy := (writePolicyOf p.policyCode).getD s.bc.policy }
    cu := { ChainUnit.reset with
      chainStart := p.chainStart, nextAddr := some p.chainStart, retireSeq := s.cu.retireSeq }
    ec := { s.ec with
      statusAddr := some p.statusAddr, parkEnable := p.parkEnable, refusalCause := .none } }

/-- The clear sweep begins (R153, R154, R61, R142). That its next index is 0 already in DISCARD, where R154
gives it on entry to WRITING, is the model's choice (log entry 8). -/
def State.beginClearing (s : State) : State :=
  ({ s with
    ec := { s.ec with engine := .clearing, identity := none, sweep := ⟨.discard, 0, 0⟩ }
    bc := { s.bc with
      poison := [], overflow := false, sets := s.bc.sets.map CacheSet.discard } } :
    State).statusUpdate.checkDiscard

/-- The table profile is checked: IDENTITY only when all else has passed (R152, R153). -/
def State.judgeProfile (s : State) (p : TableProfile) : State :=
  if !p.wellFormed s.mc.rows then s.refuseStart .profile
  else if p.clear then (s.takeProfile p).beginClearing
  else if s.ec.identity == some p.identity then (s.takeProfile p).enterRunning
  else s.refuseStart .identity

/-! ## STOP (R109, R155, R160, R161) -/

/-- The Chain Unit at STOP, by its phase (R109). That phase ENDED keeps the next address is the model's
choice (log entry 33). -/
def State.stopChain (s : State) : State :=
  match s.cu.phase with
  | .taking | .records | .link | .blocked | .ended => s
  | .header =>
    if s.outstanding (· == .headerRead) then s
    else { s with cu := { s.cu with phase := .ended } }
  | .parked | .idle =>
    let s' := s.unpark
    { s' with cu := { s'.cu with phase := .ended } }

/-- STOP or ABANDON in CLEARING: the sweep hands over no further write (R155, R161). -/
def State.stopSweep (s : State) (ending : Ending) : State :=
  if s.ec.ending == .none then
    let phase := if s.ec.sweep.phase == .writing then .draining else s.ec.sweep.phase
    ({ s with ec := { s.ec with
        ending := ending, sweep := { s.ec.sweep with phase := phase } } } : State).checkSweepEnd
  else s

/-- The engine becomes STOPPING with this ending, and no report is held yet (R160, R162); a change of
engine state is a status update, a change of the ending alone is none (R169). -/
def State.enterStopping (s : State) (ending : Ending) : State :=
  let s' : State := { s with ec := { s.ec with
    engine := .stopping, ending := ending, tableEmpty := false, chainClosed := false } }
  if s.ec.engine == .stopping then s' else s'.statusUpdate

/-- STOP (R159 to R161). -/
def State.stop (s : State) : State :=
  match s.ec.engine with
  | .running => (s.enterStopping .stop).stopChain.settleStop
  | .clearing => s.stopSweep .stop
  | _ => s.illegal 3

/-! ## RESUME (R164) -/

/-- The engine leaves the stall, its causes cleared; STOPPING goes on with ending STOP (R164). -/
def State.leaveStall (s : State) : State :=
  let (engine, ending) := match s.ec.resumeState with
    | .running => (EngineState.running, s.ec.ending)
    | .stopping => (.stopping, .stop)
  ({ s with ec := { s.ec with
      engine := engine, ending := ending, stallHostFault := false, stallBadBatch := false,
      status := { s.ec.status with stallReportIssued := false } } } : State).statusUpdate

/-- RESUME (R108, R89, R159, R164). -/
def State.resume (s : State) : State :=
  if s.ec.engine == .stalled then s.leaveStall.resumeChain.resumeTable.settleStop
  else s.illegal 4

/-! ## ABANDON (R91, R110, R162) -/

/-- The Chain Unit at ABANDON (R110). That phase ENDED keeps the next address (log entry 33), and the current
batch, the retirement outstanding mark and the batches with release writes (log entry 34), is the model's
choice. -/
def State.abandonChain (s : State) : State :=
  let s' := s.unpark
  { s' with cu := { s'.cu with
      phase := .ended, nudgePending := false, faulted := [], badBatch := false,
      releasesWaiting := [] } }

/-- The engine at ABANDON: STOPPING with ending ABANDON, the stall's causes cleared (R162). -/
def State.enterAbandon (s : State) : State :=
  ({ s with ec := { s.ec with
      stallHostFault := false, stallBadBatch := false,
      status := { s.ec.status with stallReportIssued := false } } } : State).enterStopping .abandon

/-- ABANDON (R159, R161, R162). -/
def State.abandon (s : State) : State :=
  match s.ec.engine with
  | .clearing => s.stopSweep .abandon
  | .running | .stalled => s.enterAbandon.abandonChain.abandonTable.settleStop
  | .stopping =>
    if s.ec.ending == .abandon then s
    else s.enterAbandon.abandonChain.abandonTable.settleStop
  | _ => s.illegal 5

/-! ## Engine reset (R63, R92, R111, R132, R151, R156, R165) -/

/-- Whether the Bucket Cache reports lost modifications (R63). -/
def State.cacheLoses (s : State) : Bool := s.bc.sets.any fun c => c.lines.any Line.unwritten

/-- Whether the Memory Controller reports lost modifications: a discarded access was a write (R132). -/
def State.controllerLoses (s : State) : Bool :=
  s.mc.waits.any (fun t => t.direction.isWrite)
    || allBanks.any fun b => (s.bank b).unissued.any fun a => a.body.direction.isWrite

/-- A bank's queue at engine reset: UNISSUED accesses are discarded, ISSUED ones stay and are
reported to no one (R132). -/
def Bank.keepIssued (x : Bank) : Bank :=
  { x with queue := (x.queue.filter Access.issued).map fun a => { a with orphan := true } }

/-- A pattern's data no longer matters (R151). -/
def OutstandingRead.abandoned : OutstandingRead → OutstandingRead
  | .pattern i _ => .pattern i true
  | r => r

/-- The bring-up sequencer at an engine reset in PROBING (R151). -/
def MemoryController.stopBringup (m : MemoryController) : MemoryController :=
  { m with
    profile := none, laneFaults := 0, sequencer := .idle, resetHeld := false,
    reads := m.reads.map OutstandingRead.abandoned }

/-- The Memory Controller at engine reset (R132, R151). -/
def MemoryController.engineReset (m : MemoryController) (probing : Bool) : MemoryController :=
  let m' := { m with banks := m.banks.map Bank.keepIssued, waits := [], accepting := false }
  if probing then m'.stopBringup else m'

/-- The engine state after an engine reset (R165). -/
def EngineState.afterReset : EngineState → EngineState
  | .cold | .probing => .cold
  | .failed => .failed
  | .ready | .clearing | .running | .stopping | .stalled => .ready

/-- The Engine Control's record after an engine reset (R158, R165); the status write owed afterwards
waits for one that is outstanding. The sweep's next index 0 is the model's choice (R154 gives the phase
and the outstanding count alone; log entry 8). -/
def EngineControl.engineReset (e : EngineControl) (lost : Bool) : EngineControl :=
  { EngineControl.reset with
    engine := e.engine.afterReset, failureCause := e.failureCause, statusAddr := e.statusAddr,
    parkEnable := e.parkEnable, identity := if lost then none else e.identity,
    intMask := e.intMask,
    status := { StatusUpdate.idle with
      owed := if e.statusAddr.isSome then .now else .nothing
      outstanding := e.status.outstanding } }

/-- RESET (R165). -/
def State.engineReset (s : State) : State :=
  ({ s with
    bi := { s.bi with accesses := s.bi.accesses.map fun a => { a with live := false } }
    ec := s.ec.engineReset (s.cacheLoses || s.controllerLoses)
    cu := { ChainUnit.reset with chainStart := s.cu.chainStart }
    rt := .reset
    bc := { s.bc with sets := Vector.replicate 128 CacheSet.empty, flush := none }
    mc := s.mc.engineReset (s.ec.engine == .probing) } : State).resumeAccepting

/-- Power-on reset: every block at its power-on value. Commands that wait, and the numbering of bus
accesses, are the model's own and stay (R158; log entry 23). -/
def State.powerOn (s : State) : State :=
  { State.reset with
    bi := { State.reset.bi with nextTag := s.bi.nextTag }, pending := s.pending }

/-! ## NUDGE (R102) -/

/-- A nudge sets nudge-pending. -/
def State.setNudge (s : State) : State := { s with cu := { s.cu with nudgePending := true } }

/-- A nudge (R102). -/
def State.nudge (s : State) : State :=
  match s.ec.engine with
  | .running => if s.cu.phase == .parked then s.unpark.readLink else s.setNudge
  | .stalled | .stopping => s.setNudge
  | .cold | .probing | .failed | .ready | .clearing => s

/-! ## Register writes (R166, R172, R174) -/

/-- A full-width write of CMD: a command arrival (R159, R174). -/
def State.commandArrival (s : State) (v : Word) : State :=
  match v.toNat with
  | 1 => s.bringup
  | 2 => s.start
  | 3 => s.stop
  | 4 => s.resume
  | 5 => s.abandon
  | 6 => s.engineReset
  | _ => s.illegal (v.setWidth 8)

/-- All four byte enables (R174). -/
def allEnabled (enables : BitVec 4) : Bool := enables == 15

/-- A write of INTCAUSE: clears each cause written as one (R172, R174). -/
def State.writeCause (s : State) (v : Word) (enables : BitVec 4) : State :=
  if allEnabled enables then
    { s with ec := { s.ec with intCause := s.ec.intCause &&& ~~~(v.setWidth 5) } }
  else s

/-- A write of INTMASK: replaces the mask (R172, R174). -/
def State.writeMask (s : State) (v : Word) (enables : BitVec 4) : State :=
  if allEnabled enables then { s with ec := { s.ec with intMask := v.setWidth 5 } } else s

/-- A write of the window, by offset (R166, R174). That a write of NUDGE with no byte enabled is no nudge
is the model's choice (log entry 21). -/
def State.writeRegister (s : State) (offset : Nat) (v : Word) (enables : BitVec 4) : State :=
  match offset / 4 with
  | 0 => if allEnabled enables then s.commandArrival v else s
  | 2 => if enables = 0 then s else s.nudge
  | 3 => if allEnabled enables then { s with bi := { s.bi with setupL := v } } else s
  | 4 => if allEnabled enables then { s with bi := { s.bi with setupH := v } } else s
  | 5 => s.writeCause v enables
  | 6 => s.writeMask v enables
  | _ => s

end Sys2Proof.Machine
end

