-- ==== Sys2Proof/Machine/HostEvents.lean ====
section
/-! DEFINITION. The ends of bus accesses as operations on the state: what the issuing block does when its
access completes or faults (spec/05, spec/06, spec/09 and spec/10). -/

namespace Sys2Proof.Machine

/-! ## The access that ends -/

/-- The outstanding access that an event ends: it bears the event's tag and is of its kind (log
entries 1 and 4). -/
def State.endedAccess (s : State) (tag : Nat) (kind : AccessKind → Bool) : Option BusAccess :=
  (s.accessOf tag).filter fun a => kind a.kind

/-- The end of an access: the access leaves the bus, and the block that issued it acts, unless it was
issued before an engine reset (R92, R111, R165). -/
def State.onEnd (s : State) (tag : Nat) (kind : AccessKind → Bool)
    (act : BusAccess → State → State) : State :=
  match s.endedAccess tag kind with
  | some a => if a.live then act a (s.endAccess tag) else s.endAccess tag
  | none => s

/-- The same for an act that has consequences in other blocks. -/
def State.onEndTasks (s : State) (tag : Nat) (kind : AccessKind → Bool)
    (act : BusAccess → State → State × List Task) : State × List Task :=
  match s.endedAccess tag kind with
  | some a => if a.live then act a (s.endAccess tag) else (s.endAccess tag, [])
  | none => (s, [])

/-! ## Profiles (R145, R152) -/

/-- The memory profile arrives (R145). -/
def State.memoryProfileArrived (s : State) (d : Block64) : State :=
  match decodeMemoryProfile d with
  | some p => { s with mc := { s.mc with profile := some p, sequencer := .awaitingReset } }
  | none => s.failBringup .profile

/-- The table profile arrives: START is refused or accepted (R152, R153). -/
def State.tableProfileArrived (s : State) (d : Block64) : State :=
  ({ s with ec := { s.ec with startRead := none } } : State).judgeProfile (decodeTableProfile d)

/-! ## The chain (R97 to R105, R109, R110) -/

/-- The Chain Unit takes no further batch: phase ENDED (R109). That the next address is kept is the model's
choice (log entry 33). -/
def State.endFetch (s : State) : State := { s with cu := { s.cu with phase := .ended } }

/-- A header arrives from address `a` (R97, R98, R109, R110). -/
def State.headerArrived (s : State) (a : Addr) (d : Block64) : State :=
  if s.abandoning then s.settleStop
  else if s.stopInForce then s.endFetch.settleStop
  else if s.cu.phase == .header then
    if headerAccepted d then s.takeBatch a d else s.refuseBatch
  else s

/-- The TAKEN write completes: phase RECORDS (R98, R99). -/
def State.takenWritten (s : State) : State :=
  if s.cu.phase == .taking then
    ({ s with cu := { s.cu with phase := .records } } : State).readRecords.settleStop
  else s.settleStop

/-- A record arrives for slot `k` (R81); a discarded slot becomes FREE (R91). -/
def State.recordArrived (s : State) (k : SlotId) (d : Block64) : State × List Task :=
  if (s.slot k).discarded then ((s.freeSlot k).settleStop, [])
  else
    (s.modifySlot k fun x => { x with record := some d },
      if s.considerationPoint == some k then [.consider] else [])

/-- The anchor's link arrives (R100, R109, R110). -/
def State.linkArrived (s : State) (link : Addr) : State :=
  if s.abandoning then s.settleStop
  else if s.stopInForce then s.endFetch.settleStop
  else if s.cu.phase == .link then s.followLink link
  else s

/-- The result write of slot `k` completes (R88, R91, R99, R103). That the record and link reads for the
freed slot issue before the retirement write is the model's choice (log entry 7). -/
def State.resultWritten (s : State) (k : SlotId) : State :=
  if s.abandoning then (s.freeSlot k).settleStop
  else ((s.freeSlot k).countAnswer (s.slot k)).readRecords.beginRetirement.settleStop

/-- The retirement write completes (R103, R104). -/
def State.retirementWritten (s : State) : State :=
  s.retire.readHeader.beginRetirement.settleStop

/-- The batch at `a` is forgotten by the Chain Unit (R105). -/
def State.forgetRelease (s : State) (a : Addr) : State :=
  { s with cu := { s.cu with releases := s.cu.releases.erase a } }

/-- The release write of the batch at `a` completes (R105, R109). -/
def State.releaseWritten (s : State) (a : Addr) : State := (s.forgetRelease a).settleStop

/-! ## Faults of the chain's accesses (R106, R109, R110, R91) -/

/-- A fault that ABANDON ignores (R91, R110). That the mark of a retirement write that faults is cleared at
once is the model's choice (log entry 34). -/
def State.faultAbandoned (s : State) (kind : AccessKind) : State :=
  match kind with
  | .recordRead k | .resultWrite k => (s.freeSlot k).settleStop
  | .retirementWrite =>
    ({ s with cu := { s.cu with retirementOutstanding := false } } : State).settleStop
  | .releaseWrite a => (s.forgetRelease a).settleStop
  | _ => s.settleStop

/-- Whether a STOP makes the data of this read useless (R109). -/
def AccessKind.unusedUnderStop : AccessKind → Bool
  | .headerRead | .linkRead => true
  | _ => false

/-- A faulted access of the Chain Unit is remembered and reported (R106). -/
def State.rememberFault (s : State) (a : BusAccess) : State :=
  ({ s with cu := { s.cu with faulted := insertByTag a s.cu.faulted } } : State).reportHostFault

/-- A bus fault on an access of the Chain Unit (R106, R109, R110). -/
def State.chainFault (s : State) (a : BusAccess) : State :=
  if s.abandoning then s.faultAbandoned a.kind
  else if s.stopInForce && a.kind.unusedUnderStop then s.endFetch.settleStop
  else s.rememberFault a

/-! ## Buffer transfers (R86, R87, R89, R91) -/

/-- The image of a RAW_WRITE arrives (R86); a discarded slot becomes FREE (R91). -/
def State.bufferLoaded (s : State) (k : SlotId) (d : Block128) : State × List Task :=
  if (s.slot k).discarded then ((s.freeSlot k).settleStop, [])
  else (s.loadArrived k d, [.owner])

/-- The image of a RAW_READ has been stored (R87); under ABANDON its slot becomes FREE (R91). -/
def State.bufferStored (s : State) (k : SlotId) : State × List Task := (s, [.finish k (.bare .done)])

/-- A bus fault on a buffer access (R89, R91). -/
def State.bufferFault (s : State) (a : BusAccess) : State :=
  if s.abandoning then ((a.kind.bufferSlot.map s.freeSlot).getD s).settleStop
  else
    let s' := s.markTransfer a .faulted
    ({ s' with rt := { s'.rt with faulted := insertByTag a s'.rt.faulted } } : State).reportHostFault

/-! ## Status writes (R165, R170, R171) -/

/-- No status write is outstanding any more. -/
def State.statusEnded (s : State) : State :=
  { s with ec := { s.ec with status := { s.ec.status with outstanding := none } } }

/-- The causes attached to the write that has ended are set (R170, R171). -/
def State.setAttached (s : State) : State :=
  { s with ec := { s.ec with
      intCause := s.ec.intCause ||| s.ec.status.attachedCauses
      status := { s.ec.status with attachedCauses := 0, outstanding := none } } }

/-- A status write completes: its causes are set and the status write fault is cleared (R170, R171). -/
def State.statusWritten (s : State) : State :=
  let s' := s.setAttached
  { s' with ec := { s'.ec with statusWriteFault := false } }

/-- The block is owed at the next update, unless it is owed at once already (R170; log entry 12). -/
def State.oweLater (s : State) : State :=
  if s.ec.status.owed == .now then s
  else { s with ec := { s.ec with status := { s.ec.status with owed := .atNextUpdate } } }

/-- A status write faults (R170). -/
def State.statusFaulted (s : State) : State :=
  let t := s.setAttached
  let s' : State := { t with ec := { t.ec with statusWriteFault := true } }
  if s'.mayIssue then s'.reportHostFault
  else if s'.ec.engine == .stalled && s'.ec.status.stallReportIssued then s'
  else s'.oweLater

/-- A status write ends: a live one by `act`; one issued before an engine reset sets nothing and only
lets the write owed issue (R165). -/
def State.onStatusEnd (s : State) (tag : Nat) (act : State → State) : State :=
  match s.endedAccess tag (· == .statusWrite) with
  | some a =>
    let s' := s.endAccess tag
    if a.live then act s' else s'.statusEnded
  | none => s

/-! ## The accesses that carry their slot or batch -/

/-- A record read. -/
def AccessKind.isRecordRead : AccessKind → Bool
  | .recordRead _ => true
  | _ => false

/-- A result write. -/
def AccessKind.isResultWrite : AccessKind → Bool
  | .resultWrite _ => true
  | _ => false

/-- A release write. -/
def AccessKind.isReleaseWrite : AccessKind → Bool
  | .releaseWrite _ => true
  | _ => false

/-- The read of a RAW_WRITE's buffer. -/
def AccessKind.isBufferRead : AccessKind → Bool
  | .bufferRead _ => true
  | _ => false

/-- The write of a RAW_READ's buffer. -/
def AccessKind.isBufferWrite : AccessKind → Bool
  | .bufferWrite _ => true
  | _ => false

/-- The completion of a record read, at its slot. -/
def State.recordEnds (s : State) (kind : AccessKind) (d : Block64) : State × List Task :=
  match kind with
  | .recordRead k => s.recordArrived k d
  | _ => (s, [])

/-- The completion of a result write, at its slot. -/
def State.resultEnds (s : State) (kind : AccessKind) : State :=
  match kind with
  | .resultWrite k => s.resultWritten k
  | _ => s

/-- The completion of a release write, at its batch. -/
def State.releaseEnds (s : State) (kind : AccessKind) : State :=
  match kind with
  | .releaseWrite a => s.releaseWritten a
  | _ => s

/-- The completion of a buffer read, at its slot. -/
def State.loadEnds (s : State) (kind : AccessKind) (d : Block128) : State × List Task :=
  match kind with
  | .bufferRead k => s.bufferLoaded k d
  | _ => (s, [])

/-- The completion of a buffer write, at its slot. -/
def State.storeEnds (s : State) (kind : AccessKind) : State × List Task :=
  match kind with
  | .bufferWrite k => s.bufferStored k
  | _ => (s, [])

end Sys2Proof.Machine
end

