-- ==== Sys2Proof/Machine/DeviceEvents.lean ====
section
/-! DEFINITION. The reports of the devices and the expiries of the timers as operations on the state
(spec/07_table_memory_controller.md, spec/08_check_codes_and_media_faults.md). -/

namespace Sys2Proof.Machine

/-! ## Ends of accesses, by requester -/

/-- Whether an access is one of bring-up's, which no counter counts (R136, R137). -/
def Access.ofBringup (a : Access) : Bool := a.body.requester == .bringup

/-- A read that passed its check, as its requester takes it (R54, R135, R149). -/
def State.readDelivered (s : State) (r : Requester) (im : Image) : State × List Task :=
  match r with
  | .line i w => s.fillCompleted i w im
  | .bringup => (s.probeRead im, [])
  | .sweep => (s, [])

/-- A read that failed its check twice (R136, R138, R149). -/
def State.readLost (s : State) (r : Requester) : State × List Task :=
  match r with
  | .line i w => s.fillFailed i w
  | .bringup => (s.failBringup .size, [])
  | .sweep => (s, [])

/-- A write that completed (R70 to R72, R149, R154). -/
def State.writeDelivered (s : State) (r : Requester) : State × List Task :=
  match r with
  | .line i w => s.writeCompleted i w
  | .bringup => (s.probeWritten, [])
  | .sweep => (s.sweepWriteEnded, [])

/-- A write whose three attempts met alerts; the failure of a line is left as a consequence (R137, R139,
R140, R149; log entry 30). -/
def State.writeLost (s : State) (a : Access) : State × List Task :=
  match a.body.requester with
  | .line i w => (s, [.lineLost i w])
  | .bringup => (s.failBringup .size, [])
  | .sweep =>
    match a.body.place with
    | .bucket b => ((s.poisonBucket b .write).sweepWriteEnded, [])
    | .direct _ _ _ => (s.sweepWriteEnded, [])

/-! ## Read data (R115, R135, R136) -/

/-- The retry of a read: at the head of its queue as attempt 2, counted unless it is bring-up's
(R136). -/
def State.retryRead (s : State) (b : BankId) (a : Access) : State :=
  let s' := s.retryAccess b a
  if a.ofBringup then s'
  else s'.count fun c => { c with readRetries := c.readRetries + 1 }

/-- The data of access `a` of bank `b` arrives: verified, then delivered, retried or lost (R135,
R136); an access issued before an engine reset only leaves its queue (R132). -/
def State.readArrived (s : State) (b : BankId) (a : Access) (im : Image) : State × List Task :=
  if a.orphan then (s.leaveQueue b a.age, [])
  else if im.valid then (s.leaveQueue b a.age).readDelivered a.body.requester im
  else if a.attempt = 1 then (s.retryRead b a, [])
  else (s.leaveQueue b a.age).readLost a.body.requester

/-- A read data arrival, matched to its command by order (R115). -/
def State.dataArrived (s : State) (d : Block128) : State × List Task :=
  match s.mc.reads with
  | [] => (s, [])
  | .pattern i orphan :: rest =>
    let s' : State := { s with mc := { s.mc with reads := rest } }
    (if orphan then s' else s'.patternArrived i d, [])
  | .access b age :: rest =>
    let s' : State := { s with mc := { s.mc with reads := rest } }
    match s'.queued b age with
    | some a => s'.readArrived b a (Image.ofBits d)
    | none => (s', [])

/-- After an access has ended the controller may accept again (R132). -/
def thenResume (p : State × List Task) : State × List Task := (p.1.resumeAccepting, p.2)

/-! ## Write alerts (R115, R137) -/

/-- The writes whose alert window is open, by bank. -/
def State.openWindows (s : State) : List (BankId × Access) :=
  allBanks.flatMap fun b => ((s.bank b).queue.filter fun a => a.alert.isRunning).map fun a => (b, a)

/-- Inserts a write into a list in the order of ages. -/
def insertByAge (p : BankId × Access) : List (BankId × Access) → List (BankId × Access)
  | [] => [p]
  | q :: rest => if p.2.age ≤ q.2.age then p :: q :: rest else q :: insertByAge p rest

/-- Writes in the order of their ages. -/
def byAge (l : List (BankId × Access)) : List (BankId × Access) := l.foldr insertByAge []

/-- Whether an alerted write is issued again: attempt 1 or 2, and not issued before an engine reset
(R132, R137). -/
def Access.retries (a : Access) : Bool := !a.orphan && a.attempt < 3

/-- The retry of a write, counted unless it is bring-up's (R137). -/
def State.retryWrite (s : State) (b : BankId) (a : Access) : State :=
  let s' := s.retryAccess b a
  if a.ofBringup then s'
  else s'.count fun c => { c with writeRetries := c.writeRetries + 1 }

/-- An alerted write that is not issued again ends: reported, unless it was issued before an engine
reset (R132, R137; log entry 17). -/
def State.endAlerted (p : State × List Task) (x : BankId × Access) : State × List Task :=
  let s' := p.1.leaveQueue x.1 x.2.age
  if x.2.orphan then (s', p.2)
  else
    let q := s'.writeLost x.2
    (q.1, p.2 ++ q.2)

/-- A write alert: an attempt of every write with an open window has failed. The retries go to the
heads of their queues in the order of their ages, then the other writes end by age; the failure of
each line is a consequence of its own, so that one is taken whole, its poisoning, its refusals, its
claimant's choice and its set's retry, before the next (R115, R137, R139). The spec orders the
re-issues of one bank alone; the rest of this order is the model's choice (log entry 30). -/
def State.alerted (s : State) : State × List Task :=
  let l := byAge s.openWindows
  let retried := (l.filter fun x => x.2.retries).foldr (fun x t => t.retryWrite x.1 x.2) s
  (l.filter fun x => !x.2.retries).foldl State.endAlerted (retried, [])

/-- The write of this age whose alert window is open. -/
def State.openWindow (s : State) (age : Nat) : Option (BankId × Access) :=
  s.openWindows.find? fun x => x.2.age == age

/-- A write's ALERT_WAIT expires without an alert: the write has completed (R115). -/
def State.windowClosed (s : State) (age : Nat) : State × List Task :=
  match s.openWindow age with
  | some (b, a) =>
    let s' := s.leaveQueue b age
    if a.orphan then (s', []) else s'.writeDelivered a.body.requester
  | none => (s, [])

/-! ## Bank and refresh timers (R117, R126, R128, R129) -/

/-- OPEN_WAIT expires: the bank is OPEN with its row, and may fall idle (R117, R126). -/
def State.openWaitExpired (s : State) (b : BankId) : State :=
  if (s.bank b).openWait.isRunning then
    let s' := s.modifyBank b fun x => { x with openWait := .stopped }
    match (s.bank b).state with
    | .opening r => (s'.modifyBank b fun x => { x with state := .opened r }).fallIdle b
    | _ => s'
  else s

/-- HOLD_MIN expires (R117). -/
def State.holdMinExpired (s : State) (b : BankId) : State :=
  s.modifyBank b fun x => { x with holdMin := .stopped }

/-- CLOSE_WAIT expires: the bank is CLOSED (R117, R132). -/
def State.closeWaitExpired (s : State) (b : BankId) : State :=
  if (s.bank b).closeWait.isRunning then
    (s.modifyBank b fun x =>
      { x with
        closeWait := .stopped
        state := if x.state == .closing then .closed else x.state }).resumeAccepting
  else s

/-- IDLE_CLOSE expires: the bank is a candidate for an idle close (R126). -/
def State.idleCloseExpired (s : State) (b : BankId) : State :=
  if (s.bank b).idleClose.isRunning then
    let s' := s.modifyBank b fun x => { x with idleClose := .stopped }
    { s' with mc := { s'.mc with idleCandidates := s'.mc.idleCandidates ++ [b] } }
  else s

/-- A REFRESHING bank becomes CLOSED. -/
def Bank.endRefresh (x : Bank) : Bank :=
  { x with state := if x.state == .refreshing then .closed else x.state }

/-- REFRESH_WAIT expires (R129): banks CLOSED, the owed count one less, the commitment ended, and
entered again if the count is still 3 or more. -/
def State.refreshWaitExpired (s : State) : State :=
  if s.mc.refreshWait.isRunning then
    ({ s with mc := { s.mc with
        banks := s.mc.banks.map Bank.endRefresh
        refreshWait := .stopped
        owed := s.mc.owed - 1
        committed := Config.owedForced ≤ s.mc.owed - 1 } } : State).resumeAccepting
  else s

/-- REFRESH_PERIOD expires (R128, R129): it restarts, and the owed count rises, or an overrun is
counted. -/
def State.refreshPeriodExpired (s : State) : State :=
  if s.mc.refreshPeriod.isRunning then
    let s' : State := { s with mc := { s.mc with
      refreshPeriod := s.timer MemoryProfile.refreshPeriod } }
    if s.mc.owed < Config.owedLimit then
      { s' with mc := { s'.mc with
          owed := s.mc.owed + 1
          committed := s.mc.committed || Config.owedForced ≤ s.mc.owed + 1 } }
    else s'.count fun c => { c with refreshOverruns := c.refreshOverruns + 1 }
  else s

/-! ## Column timers (R118) -/

/-- The near timer of a group expires. -/
def State.gapNearExpired (s : State) (g : GroupId) : State :=
  { s with mc := { s.mc with near := s.mc.near.set g .stopped } }

/-- The far timer of a group expires. -/
def State.gapFarExpired (s : State) (g : GroupId) : State :=
  { s with mc := { s.mc with far := s.mc.far.set g .stopped } }

/-- TURN_GAP expires. -/
def State.turnGapExpired (s : State) : State := { s with mc := { s.mc with turnGap := .stopped } }

/-! ## Device phases (R147) -/

/-- The reset hold expires: the line is released (R147); the timer of an attempt that an engine reset
ended only stops (R151). -/
def State.resetHoldExpired (s : State) : State :=
  if s.mc.resetHold.isRunning then
    let s' : State := { s with mc := { s.mc with resetHold := .stopped } }
    if s.mc.sequencer == .resetHold then s'.endDeviceReset else s'
  else s

/-- MODE_GAP expires: the next MODE_SET issues, or the lane check begins (R147, R148). -/
def State.modeGapExpired (s : State) : State :=
  if s.mc.modeGap.isRunning then
    let s' : State := { s with mc := { s.mc with modeGap := .stopped } }
    match s.mc.sequencer with
    | .mode i => if h : i < 4 then s'.modeSet i h else s'.patternRead 0
    | _ => s'
  else s

/-- The device reset phase, once nothing of an earlier attempt is in flight (R147). -/
def State.deviceResetPhase (s : State) : State :=
  if s.mc.sequencer == .awaitingReset && s.nothingInFlight then s.beginDeviceReset.resumeAccepting
  else s

end Sys2Proof.Machine
end

