-- ==== Sys2Proof/Machine/Commands.lean ====
section
/-! DEFINITION. The meanings of the commands of the register window and of power-on reset
(spec/10_engine_control_status_and_interrupts.md, spec/11_layouts_and_codes.md). -/

namespace Sys2Proof.Machine

/-- POWER_ON_RESET: every block at its power-on values (R158, R62, R92, R111, R133). -/
def execPowerOnReset (s : State) :
    Host.Outcome State Fault Refusal :=
  .next s.powerOn

/-- BRINGUP (R145, R159). -/
def execBringup (s : State) :
    Host.Outcome State Fault Refusal :=
  .next s.bringup.closeEvent

/-- START (R152, R159). -/
def execStart (s : State) :
    Host.Outcome State Fault Refusal :=
  .next s.start.closeEvent

/-- STOP (R160, R161, R109). -/
def execStop (s : State) :
    Host.Outcome State Fault Refusal :=
  .next s.stop.closeEvent

/-- RESUME (R164, R108, R89). -/
def execResume (s : State) :
    Host.Outcome State Fault Refusal :=
  .next s.resume.closeEvent

/-- ABANDON (R162, R161, R91, R110). -/
def execAbandon (s : State) :
    Host.Outcome State Fault Refusal :=
  .next s.abandon.closeEvent

/-- RESET: an engine reset (R165). -/
def execReset (s : State) :
    Host.Outcome State Fault Refusal :=
  .next s.engineReset.closeEvent

/-- ILLEGAL_COMMAND: a full-width write to CMD of a value that names no command (R159, R174; a value that
names one is that command, log entry 21). -/
def execIllegalCommand (value : Word) (s : State) :
    Host.Outcome State Fault Refusal :=
  .next (s.commandArrival value).closeEvent

/-- NUDGE: whatever the value (R102, R174). -/
def execNudge (_value : Word) (s : State) :
    Host.Outcome State Fault Refusal :=
  .next s.nudge.closeEvent

/-- INTCAUSE_WRITE (R172, R174). -/
def execIntcauseWrite (value : Word) (enables : BitVec 4) (s : State) :
    Host.Outcome State Fault Refusal :=
  .next (s.writeCause value enables)

/-- INTMASK_WRITE (R172, R174). -/
def execIntmaskWrite (value : Word) (enables : BitVec 4) (s : State) :
    Host.Outcome State Fault Refusal :=
  .next (s.writeMask value enables)

/-- REGISTER_WRITE: by offset (R166, R174; log entry 21). -/
def execRegisterWrite (offset : Nat) (value : Word) (enables : BitVec 4) (s : State) :
    Host.Outcome State Fault Refusal :=
  .next (s.writeRegister offset value enables).closeEvent

end Sys2Proof.Machine
end

