-- ==== Sys2Proof/Machine/DeviceReports.lean ====
section
/-! DEFINITION. The meanings of the devices' reports, of the timers' expiries and of the part's own steps
(spec/03, spec/07, spec/08, spec/09). -/

namespace Sys2Proof.Machine

/-- READ_DATA_ARRIVAL (R115, R135, R136). -/
def execReadDataArrival (data : Block128) (s : State) :
    Host.Outcome State Fault Refusal :=
  outcomeOf (settle (thenResume (s.dataArrived data)))

/-- WRITE_ALERT (R115, R137). -/
def execWriteAlert (s : State) :
    Host.Outcome State Fault Refusal :=
  outcomeOf (settle (thenResume s.alerted))

/-- ALERT_WAIT_EXPIRY: the write has completed (R115). -/
def execAlertWaitExpiry (age : Nat) (s : State) :
    Host.Outcome State Fault Refusal :=
  outcomeOf (settle (thenResume (s.windowClosed age)))

/-- OPEN_WAIT_EXPIRY (R117). -/
def execOpenWaitExpiry (bank : BankId) (s : State) :
    Host.Outcome State Fault Refusal :=
  .next (s.openWaitExpired bank)

/-- HOLD_MIN_EXPIRY (R117). -/
def execHoldMinExpiry (bank : BankId) (s : State) :
    Host.Outcome State Fault Refusal :=
  .next (s.holdMinExpired bank)

/-- CLOSE_WAIT_EXPIRY (R117). -/
def execCloseWaitExpiry (bank : BankId) (s : State) :
    Host.Outcome State Fault Refusal :=
  .next (s.closeWaitExpired bank)

/-- IDLE_CLOSE_EXPIRY (R126). -/
def execIdleCloseExpiry (bank : BankId) (s : State) :
    Host.Outcome State Fault Refusal :=
  .next (s.idleCloseExpired bank)

/-- REFRESH_WAIT_EXPIRY (R129). -/
def execRefreshWaitExpiry (s : State) :
    Host.Outcome State Fault Refusal :=
  .next s.refreshWaitExpired

/-- REFRESH_PERIOD_EXPIRY (R128). -/
def execRefreshPeriodExpiry (s : State) :
    Host.Outcome State Fault Refusal :=
  .next s.refreshPeriodExpired

/-- GAP_NEAR_EXPIRY (R118). -/
def execGapNearExpiry (group : GroupId) (s : State) :
    Host.Outcome State Fault Refusal :=
  .next (s.gapNearExpired group)

/-- GAP_FAR_EXPIRY (R118). -/
def execGapFarExpiry (group : GroupId) (s : State) :
    Host.Outcome State Fault Refusal :=
  .next (s.gapFarExpired group)

/-- TURN_GAP_EXPIRY (R118). -/
def execTurnGapExpiry (s : State) :
    Host.Outcome State Fault Refusal :=
  .next s.turnGapExpired

/-- RESET_HOLD_EXPIRY (R147). -/
def execResetHoldExpiry (s : State) :
    Host.Outcome State Fault Refusal :=
  .next s.resetHoldExpired

/-- MODE_GAP_EXPIRY (R147, R148). -/
def execModeGapExpiry (s : State) :
    Host.Outcome State Fault Refusal :=
  .next s.modeGapExpired

/-- DEVICE_RESET_PHASE (R147). -/
def execDeviceResetPhase (s : State) :
    Host.Outcome State Fault Refusal :=
  .next s.deviceResetPhase

/-- ARBITER_ISSUE: a moment at which the port is free (R122). -/
def execArbiterIssue (s : State) :
    Host.Outcome State Fault Refusal :=
  .next s.arbitrate

/-- STEP_EXECUTION at the head of this line's waiter queue (R47). -/
def execStepExecution (set : SetId) (way : Way) (s : State) :
    Host.Outcome State Fault Refusal :=
  outcomeOf (settle (s.executeHead set way))

end Sys2Proof.Machine
end

