-- ==== Sys2Proof/Machine/HostEnds.lean ====
section
/-! DEFINITION. The meanings of the ends of bus accesses (spec/05, spec/06, spec/09, spec/10). -/

namespace Sys2Proof.Machine

/-- MEMORY_PROFILE_ARRIVAL (R145). -/
def execMemoryProfileArrival (tag : Nat) (data : Block64) (s : State) :
    Host.Outcome State Fault Refusal :=
  .next (s.onEnd tag (· == .memoryProfileRead) fun _ t =>
    t.memoryProfileArrived data).closeEvent

/-- MEMORY_PROFILE_FAULT: bring-up fails with BUS (R145, R146). -/
def execMemoryProfileFault (tag : Nat) (s : State) :
    Host.Outcome State Fault Refusal :=
  .next (s.onEnd tag (· == .memoryProfileRead) fun _ t => t.failBringup .bus).closeEvent

/-- TABLE_PROFILE_ARRIVAL (R152, R153). -/
def execTableProfileArrival (tag : Nat) (data : Block64) (s : State) :
    Host.Outcome State Fault Refusal :=
  .next (s.onEnd tag (· == .tableProfileRead) fun _ t =>
    t.tableProfileArrived data).closeEvent

/-- TABLE_PROFILE_FAULT: START is refused with BUS (R152). -/
def execTableProfileFault (tag : Nat) (s : State) :
    Host.Outcome State Fault Refusal :=
  .next (s.onEnd tag (· == .tableProfileRead) fun _ t => t.refuseStart .bus).closeEvent

/-- HEADER_ARRIVAL (R97, R98). -/
def execHeaderArrival (tag : Nat) (data : Block64) (s : State) :
    Host.Outcome State Fault Refusal :=
  .next (s.onEnd tag (· == .headerRead) fun a t => t.headerArrived a.addr data).closeEvent

/-- TAKEN_WRITE_COMPLETION (R98, R99). -/
def execTakenWriteCompletion (tag : Nat) (s : State) :
    Host.Outcome State Fault Refusal :=
  .next (s.onEnd tag (· == .takenWrite) fun _ t => t.takenWritten).closeEvent

/-- RECORD_ARRIVAL (R81). -/
def execRecordArrival (tag : Nat) (data : Block64) (s : State) :
    Host.Outcome State Fault Refusal :=
  outcomeOf (settle (s.onEndTasks tag AccessKind.isRecordRead fun a t => t.recordEnds a.kind data))

/-- LINK_ARRIVAL (R100). -/
def execLinkArrival (tag : Nat) (link : Addr) (s : State) :
    Host.Outcome State Fault Refusal :=
  .next (s.onEnd tag (· == .linkRead) fun _ t => t.linkArrived link).closeEvent

/-- RESULT_WRITE_COMPLETION (R88). -/
def execResultWriteCompletion (tag : Nat) (s : State) :
    Host.Outcome State Fault Refusal :=
  .next (s.onEnd tag AccessKind.isResultWrite fun a t => t.resultEnds a.kind).closeEvent

/-- RETIREMENT_WRITE_COMPLETION (R104). -/
def execRetirementWriteCompletion (tag : Nat) (s : State) :
    Host.Outcome State Fault Refusal :=
  .next (s.onEnd tag (· == .retirementWrite) fun _ t => t.retirementWritten).closeEvent

/-- RELEASE_WRITE_COMPLETION (R105). -/
def execReleaseWriteCompletion (tag : Nat) (s : State) :
    Host.Outcome State Fault Refusal :=
  .next (s.onEnd tag AccessKind.isReleaseWrite fun a t => t.releaseEnds a.kind).closeEvent

/-- CHAIN_ACCESS_FAULT (R106). -/
def execChainAccessFault (tag : Nat) (s : State) :
    Host.Outcome State Fault Refusal :=
  .next (s.onEnd tag AccessKind.ofChain fun a t => t.chainFault a).closeEvent

/-- LOAD_COMPLETION (R86). -/
def execLoadCompletion (tag : Nat) (data : Block128) (s : State) :
    Host.Outcome State Fault Refusal :=
  outcomeOf (settle (s.onEndTasks tag AccessKind.isBufferRead fun a t => t.loadEnds a.kind data))

/-- STORE_COMPLETION (R87). -/
def execStoreCompletion (tag : Nat) (s : State) :
    Host.Outcome State Fault Refusal :=
  outcomeOf (settle (s.onEndTasks tag AccessKind.isBufferWrite fun a t => t.storeEnds a.kind))

/-- BUFFER_ACCESS_FAULT (R89). -/
def execBufferAccessFault (tag : Nat) (s : State) :
    Host.Outcome State Fault Refusal :=
  .next (s.onEnd tag AccessKind.ofBuffer fun a t => t.bufferFault a).closeEvent

/-- STATUS_WRITE_COMPLETION (R171). -/
def execStatusWriteCompletion (tag : Nat) (s : State) :
    Host.Outcome State Fault Refusal :=
  .next (s.onStatusEnd tag State.statusWritten).closeEvent

/-- STATUS_WRITE_FAULT (R170). -/
def execStatusWriteFault (tag : Nat) (s : State) :
    Host.Outcome State Fault Refusal :=
  .next (s.onStatusEnd tag State.statusFaulted).closeEvent

end Sys2Proof.Machine
end

