-- ==== Sys2Proof/Machine/Dispatch.lean ====
section
/-! DEFINITION. The meaning of every command: one arm for each constructor of Instr. -/

namespace Sys2Proof.Machine

def exec (i : Instr) (s : State) : Host.Outcome State Fault Refusal :=
  match i with
  | .powerOnReset => Sys2Proof.Machine.execPowerOnReset s
  | .bringup => Sys2Proof.Machine.execBringup s
  | .start => Sys2Proof.Machine.execStart s
  | .stop => Sys2Proof.Machine.execStop s
  | .resume => Sys2Proof.Machine.execResume s
  | .abandon => Sys2Proof.Machine.execAbandon s
  | .reset => Sys2Proof.Machine.execReset s
  | .illegalCommand value => Sys2Proof.Machine.execIllegalCommand value s
  | .nudge value => Sys2Proof.Machine.execNudge value s
  | .intcauseWrite value enables => Sys2Proof.Machine.execIntcauseWrite value enables s
  | .intmaskWrite value enables => Sys2Proof.Machine.execIntmaskWrite value enables s
  | .registerWrite offset value enables => Sys2Proof.Machine.execRegisterWrite offset value enables s
  | .memoryProfileArrival tag data => Sys2Proof.Machine.execMemoryProfileArrival tag data s
  | .memoryProfileFault tag => Sys2Proof.Machine.execMemoryProfileFault tag s
  | .tableProfileArrival tag data => Sys2Proof.Machine.execTableProfileArrival tag data s
  | .tableProfileFault tag => Sys2Proof.Machine.execTableProfileFault tag s
  | .headerArrival tag data => Sys2Proof.Machine.execHeaderArrival tag data s
  | .takenWriteCompletion tag => Sys2Proof.Machine.execTakenWriteCompletion tag s
  | .recordArrival tag data => Sys2Proof.Machine.execRecordArrival tag data s
  | .linkArrival tag link => Sys2Proof.Machine.execLinkArrival tag link s
  | .resultWriteCompletion tag => Sys2Proof.Machine.execResultWriteCompletion tag s
  | .retirementWriteCompletion tag => Sys2Proof.Machine.execRetirementWriteCompletion tag s
  | .releaseWriteCompletion tag => Sys2Proof.Machine.execReleaseWriteCompletion tag s
  | .chainAccessFault tag => Sys2Proof.Machine.execChainAccessFault tag s
  | .loadCompletion tag data => Sys2Proof.Machine.execLoadCompletion tag data s
  | .storeCompletion tag => Sys2Proof.Machine.execStoreCompletion tag s
  | .bufferAccessFault tag => Sys2Proof.Machine.execBufferAccessFault tag s
  | .statusWriteCompletion tag => Sys2Proof.Machine.execStatusWriteCompletion tag s
  | .statusWriteFault tag => Sys2Proof.Machine.execStatusWriteFault tag s
  | .readDataArrival data => Sys2Proof.Machine.execReadDataArrival data s
  | .writeAlert => Sys2Proof.Machine.execWriteAlert s
  | .alertWaitExpiry age => Sys2Proof.Machine.execAlertWaitExpiry age s
  | .openWaitExpiry bank => Sys2Proof.Machine.execOpenWaitExpiry bank s
  | .holdMinExpiry bank => Sys2Proof.Machine.execHoldMinExpiry bank s
  | .closeWaitExpiry bank => Sys2Proof.Machine.execCloseWaitExpiry bank s
  | .idleCloseExpiry bank => Sys2Proof.Machine.execIdleCloseExpiry bank s
  | .refreshWaitExpiry => Sys2Proof.Machine.execRefreshWaitExpiry s
  | .refreshPeriodExpiry => Sys2Proof.Machine.execRefreshPeriodExpiry s
  | .gapNearExpiry group => Sys2Proof.Machine.execGapNearExpiry group s
  | .gapFarExpiry group => Sys2Proof.Machine.execGapFarExpiry group s
  | .turnGapExpiry => Sys2Proof.Machine.execTurnGapExpiry s
  | .resetHoldExpiry => Sys2Proof.Machine.execResetHoldExpiry s
  | .modeGapExpiry => Sys2Proof.Machine.execModeGapExpiry s
  | .deviceResetPhase => Sys2Proof.Machine.execDeviceResetPhase s
  | .arbiterIssue => Sys2Proof.Machine.execArbiterIssue s
  | .stepExecution set way => Sys2Proof.Machine.execStepExecution set way s

end Sys2Proof.Machine
end

