-- ==== Sys2Proof/Safety.lean ====
section
/-! DEFINITION. What must hold of the part in every state: the laws the spec states where a piece of state
is owned, as predicates the statements use; and the words the statements speak in. -/

namespace Sys2Proof.Machine

/-! ## Laws -/

/-- The engine is RUNNING, STOPPING or STALLED. -/
def EngineState.serving : EngineState → Bool
  | .running | .stopping | .stalled => true
  | _ => false

/-- The law of the table identity (R157): CLEARING only while it is NONE; RUNNING, STOPPING or STALLED
only while it is set. -/
def State.identityLaw (s : State) : Prop :=
  (s.ec.engine = .clearing → s.ec.identity = none)
    ∧ (s.ec.engine.serving = true → s.ec.identity.isSome = true)

/-- The refresh owed count never exceeds 4 (R128). -/
def State.owedLaw (s : State) : Prop := s.mc.owed ≤ 4

/-- The poison list holds at most 32 entries (R141). -/
def State.poisonLaw (s : State) : Prop := s.bc.poison.length ≤ 32

/-- The size exponent held by the Table Logic lies from 10 to 24 (R1, R14). -/
def State.sizeLaw (s : State) : Prop := 10 ≤ s.tl.size ∧ s.tl.size ≤ 24

/-- A bank access queue holds at most 16 accesses; none is overtaken more than 8 times, none is past
attempt 3 (R116, R119). -/
def Bank.queueLaw (x : Bank) : Prop :=
  x.queue.length ≤ 16 ∧ ∀ a ∈ x.queue, a.overtaken ≤ 8 ∧ 1 ≤ a.attempt ∧ a.attempt ≤ 3

/-- The queue law at every bank. -/
def State.queueLaw (s : State) : Prop := ∀ b : BankId, (s.bank b).queueLaw

/-- No status write that may issue is held back at the end of an event (R169). -/
def State.statusLaw (s : State) : Prop := s.statusDue = false

/-- In a set at most one line is claimed, and a claimed line is WRITING (R44), its queue and its write
lists empty (R52, R69). -/
def CacheSet.claimLaw (c : CacheSet) : Prop :=
  (∀ v w : Way, c.lines[v].claim.isSome = true → c.lines[w].claim.isSome = true → v = w)
    ∧ ∀ w : Way, c.lines[w].claim.isSome = true → c.lines[w].state = .writing
      ∧ c.lines[w].waiters = [] ∧ c.lines[w].current = [] ∧ c.lines[w].next = []

/-- The law of the claims in every set. -/
def State.claimLaw (s : State) : Prop := ∀ i : SetId, (s.cacheSet i).claimLaw

/-- The header reads of the Chain Unit: those outstanding, and those remembered as faulted (R97, R106). -/
def State.headerReads (s : State) : Nat :=
  (s.bi.accesses.filter fun a => a.live && a.kind == .headerRead).length
    + (s.cu.faulted.filter fun a => a.kind == .headerRead).length

/-- At most 8 batches are open (R98); at most one header read is outstanding or remembered as faulted, and
one is only while fewer than 8 are open (R97, R106). The Request Table remembers none (R89). -/
def State.batchLaw (s : State) : Prop :=
  s.cu.batches.length ≤ 8 ∧ s.headerReads ≤ 1 ∧ (1 ≤ s.headerReads → s.cu.batches.length < 8)
    ∧ ∀ a ∈ s.rt.faulted, a.kind ≠ .headerRead

/-! ## The words of the statements -/

/-- The access with this tag is outstanding, of this kind, and its issuer still acts on its end. -/
def State.awaits (s : State) (tag : Nat) (a : BusAccess) : Prop :=
  s.accessOf tag = some a ∧ a.live = true

/-- Every access outstanding in `s` is outstanding in `t`. -/
def State.keepsAccesses (s t : State) : Prop := s.bi.accesses <+: t.bi.accesses

/-- Every access outstanding in `s`, but for the one that has ended, is outstanding in `t`. -/
def State.endsAccess (s : State) (tag : Nat) (t : State) : Prop :=
  (s.bi.accesses.filter fun a => a.tag != tag) <+: t.bi.accesses

/-- Every access outstanding in `t` and not in `s` is a status write or of one of these kinds. -/
def State.addsOnly (s t : State) (p : AccessKind → Bool) : Prop :=
  ∀ a ∈ t.bi.accesses, a ∉ s.bi.accesses → a.kind = .statusWrite ∨ p a.kind = true

/-- A live access of this kind, address, size and data is outstanding. -/
def State.hasIssued (t : State) (kind : AccessKind) (addr : Addr) (size : Nat) (data : List Byte) :
    Prop :=
  ∃ a ∈ t.bi.accesses, a.kind = kind ∧ a.addr = addr ∧ a.size = size ∧ a.data = data ∧ a.live = true

/-- From `s` to `t` an event of this cause took place (R171). With no status block address known the cause
is set at once. With one known INTCAUSE is as before: the cause is attached to the status write that
the event issues, which holds the state after the event, or, while one is outstanding, it waits. -/
def State.raisesCause (s t : State) (cause : BitVec 5) : Prop :=
  (s.ec.statusAddr = none → t.ec.intCause = s.ec.intCause ||| cause)
    ∧ ∀ addr, s.ec.statusAddr = some addr → t.ec.intCause = s.ec.intCause
      ∧ (s.ec.status.outstanding = none →
          t.ec.status.attachedCauses = s.ec.status.waitingCauses ||| cause
          ∧ t.ec.status.waitingCauses = 0 ∧ t.ec.status.owed = .nothing
          ∧ t.ec.status.outstanding.isSome = true
          ∧ t.hasIssued .statusWrite addr t.statusBlock.length t.statusBlock)
      ∧ (s.ec.status.outstanding.isSome = true →
          t.ec.status.waitingCauses = s.ec.status.waitingCauses ||| cause
          ∧ t.ec.status.attachedCauses = s.ec.status.attachedCauses ∧ t.ec.status.owed = .now
          ∧ t.ec.status.outstanding = s.ec.status.outstanding)

/-- The access of this body waits or stands UNISSUED at its bank, as attempt 1 (R119, R120). -/
def State.handsOver (t : State) (u : Transaction) : Prop :=
  u ∈ t.mc.waits ∨ ∃ a ∈ (t.bank u.place.bank).queue,
    a.body = u ∧ a.attempt = 1 ∧ a.overtaken = 0 ∧ a.issued = false

/-- The register window's stored words and the queue of waiting commands are as before. -/
def State.sameWindow (s t : State) : Prop :=
  t.bi.setupL = s.bi.setupL ∧ t.bi.setupH = s.bi.setupH ∧ t.ec.intMask = s.ec.intMask
    ∧ t.pending = s.pending

/-- The Request Table, the Table Logic, the Bucket Cache and the Memory Controller are as before. -/
def State.sameTablePath (s t : State) : Prop :=
  t.rt = s.rt ∧ t.tl = s.tl ∧ t.bc = s.bc ∧ t.mc = s.mc

/-- Every bank but `b` is as before. -/
def State.onlyBank (s t : State) (b : BankId) : Prop := ∀ c : BankId, c ≠ b → t.bank c = s.bank c

/-- From `s` to `t` the clear sweep begins to write (R154): from bucket 0 on, a write of the empty bucket
for every place that bank 0's queue has free (none while the controller accepts nothing or accesses
wait for the bank), and one more, which waits (R120). -/
def State.beginsWriting (s t : State) : Prop :=
  let free := if s.mc.accepting && s.mc.waits.all (fun u => u.place.bank != 0) then
    16 - (s.bank 0).queue.length else 0
  let write := fun n : Bucket => (⟨.bucket n, .write .blank, .sweep⟩ : Transaction)
  t.ec.sweep = ⟨.writing, free + 1, free + 1⟩ ∧ t.mc.waits = s.mc.waits ++ [write free]
    ∧ (t.bank 0).queue = (s.bank 0).queue ++ (List.range free).map (fun n =>
        ⟨write n, 1, 0, s.mc.nextAge + n, false, .stopped, false⟩)
    ∧ s.onlyBank t 0

/-- From `s` to `t` an interrupted clear sweep ends (R155, R161): the engine is READY, the identity stays,
and STATE is raised at the end of the event. -/
def State.endsClearing (s t : State) : Prop :=
  t.ec.engine = .ready ∧ t.ec.ending = .none ∧ t.ec.sweep = { s.ec.sweep with phase := .idle }
    ∧ t.ec.identity = s.ec.identity ∧ t.mc = s.mc ∧ t.cu = s.cu ∧ s.raisesCause t.closeEvent 8

/-- How an event under ABANDON ends, from the state `u` that its own effect leaves (R91, R110, R162). With no
access of the Chain Unit outstanding the chain is closed and forgotten. Once it is closed and every
slot is FREE the engine is READY, which raises STATE. Nothing is issued but a status write. (That no next
address is held after the chain has closed is the model's choice, log entry 33, and that the current
batch, the retirement outstanding mark and the batches with release writes are held until then and not
after it, log entry 34.) -/
def State.drainsAbandoned (u t : State) : Prop :=
  let closes := u.cu.phase == .ended && !u.outstanding AccessKind.ofChain
  let closed := closes || u.ec.chainClosed
  t.rt = u.rt ∧ t.tl = u.tl ∧ t.bc = u.bc ∧ t.mc = u.mc ∧ t.pending = u.pending
    ∧ t.bi.setupL = u.bi.setupL ∧ t.bi.setupH = u.bi.setupH ∧ u.bi.accesses <+: t.bi.accesses
    ∧ (∀ a ∈ t.bi.accesses, a ∉ u.bi.accesses → a.kind = .statusWrite)
    ∧ t.cu = (if closes then { u.cu with
        phase := .idle, anchor := none, current := none, batches := [], nextAddr := none,
        retirementOutstanding := false, releases := [] } else u.cu)
    ∧ ((closed && u.allFree) = true → u.raisesCause t 8 ∧ t.ec = { u.ec with
        engine := .ready, ending := .none, tableEmpty := false, chainClosed := false,
        status := t.ec.status, intCause := t.ec.intCause })
    ∧ ((closed && u.allFree) = false → t.ec = { u.ec with
        tableEmpty := u.allFree, chainClosed := closed, status := t.ec.status })

/-- Slot `k` becomes FREE: it leaves the age list, the FINISHED slots without a result write, and the
slots whose record read has not issued (R80, R91). -/
def State.freed (s : State) (k : SlotId) : State :=
  { s with
    rt := { s.rt with
      slots := s.rt.slots.set k Slot.empty, age := s.rt.age.filter (· != k)
      unreported := s.rt.unreported.filter (· != k) }
    cu := { s.cu with given := s.cu.given.filter (· != k) } }

/-- Every block but the Memory Controller is as before. -/
def State.onlyController (s t : State) : Prop := ∃ m, t = { s with mc := m }

/-- Every slot but `k` is as before. -/
def State.onlySlot (s t : State) (k : SlotId) : Prop := ∀ j : SlotId, j ≠ k → t.slot j = s.slot j

/-- Every line but the one of way `w` of set `i` is as before. -/
def State.onlyLine (s t : State) (i : SetId) (w : Way) : Prop :=
  ∀ (j : SetId) (v : Way), (j ≠ i ∨ v ≠ w) → t.line j v = s.line j v

/-- Line `w` of set `i` is the last that is not FREE while the cache discards its lines (R61), before the
sweep has handed over a write (R154). -/
def State.lastOfDiscard (s : State) (i : SetId) (w : Way) : Prop :=
  s.ec.sweep.phase = .discard ∧ s.ec.sweep.outstanding = 0 ∧ s.sizeLaw
    ∧ (∀ (j : SetId) (v : Way), (j ≠ i ∨ v ≠ w) → (s.line j v).state = .free)
    ∧ (∀ u ∈ s.mc.waits, u.requester ≠ .sweep) ∧ (s.bank 0).queue.length ≤ 16

/-- From `s` to `t` that last line becomes FREE: the sweep begins to write, or, interrupted by STOP or
ABANDON, ends (R61, R154, R155). -/
def State.endsDiscard (s t : State) (i : SetId) (w : Way) : Prop :=
  t.line i w = Line.empty ∧ s.onlyLine t i w ∧ t.rt = s.rt ∧ t.bi = s.bi
    ∧ (s.ec.ending = .none → s.beginsWriting t) ∧ (s.ec.ending ≠ .none → s.endsClearing t)

/-- From `s` to `t` way `w` of set `i` is given, without a fill, to request `k` of the context `c`, a REPAIR
or a RAW_WRITE of image `im` (R37, R38, R59): its bucket leaves the poison list, and its step writes the
whole image, a RAW_WRITE's in normal form. By the back treatment the line is DIRTY and `tasks` is the
request's end; by the through treatment, which REPAIR always takes, its write is handed over. -/
def State.takesWhole (s t : State) (tasks : List Task) (i : SetId) (w : Way) (k : SlotId) (c : Context)
    (im : Image) : Prop :=
  let b := c.bucket
  let through := c.request.kind = .repair ∨ s.bc.policy = .through
    ∨ (s.bc.policy = .adaptive ∧ s.openRow b = true)
  let new := if c.request.kind = .repair then Image.repaired else im.normalForm
  s.onlyLine t i w ∧ t.bc.poison = s.bc.poison.filter (fun e => e.bucket != b)
    ∧ (t.cacheSet i).order.getLast? = some w ∧ (t.cacheSet i).waiting = (s.cacheSet i).waiting
    ∧ (¬through → tasks = [.finish k (.bare .done)] ∧ t.mc = s.mc
      ∧ t.ec.counters = s.ec.counters ∧ t.rt = s.rt
      ∧ t.line i w = { Line.empty with state := .dirty, tag := some b, image := new })
    ∧ (through → tasks = [] ∧ t.line i w = { Line.empty with
        state := .writing, tag := some b, image := new, current := [k] }
      ∧ t.slot k = { s.slot k with state := .awaitingWrite, result := some (.bare .done) }
      ∧ s.onlySlot t k ∧ t.handsOver ⟨.bucket b, .write new, .line i w⟩
      ∧ t.ec.counters = { s.ec.counters with
          throughWrites := s.ec.counters.throughWrites + 1 })

end Sys2Proof.Machine
end

