-- ==== Sys2Proof/Certificates/Slice0/Obligations.lean ====
section
/-! DEFINITION. The statements about the part: what each command does, what it leaves alone, the laws every
step keeps, and the rules of hash, search, placement and accumulation. -/

open Sys2Proof Sys2Proof.Machine

/-! ## The queue of commands -/

/-- A step is the meaning of the front command on the state with the queue's rest; on an empty queue
the part idles (the model's choice, log entry 2). -/
def Obligations.StepRunsTheFrontCommand : Prop :=
  (∀ (c : Instr) (s : State) (rest : List Instr), s.pending = c :: rest →
      step s = exec c (s.withPending rest))
    ∧ ∀ s : State, s.pending = [] → step s = .next s

/-- No command touches the queue of those that wait. (For POWER_ON_RESET this is the model's choice, log
entry 23: the queue is the model's own.) -/
def Obligations.EveryCommandKeepsTheQueue : Prop :=
  ∀ (c : Instr) (s t : State), exec c s = .next t → t.pending = s.pending

/-! ## Power-on reset and engine reset -/

/-- R62: after power-on reset every line is FREE, untagged, with empty lists and no claim; every set
wait list is empty, no set has a claimed line, and the order of use is way 0 to way 3. -/
def Obligations.PowerOnResetEmptiesTheCache : Prop :=
  ∀ s : State, ∃ t, exec .powerOnReset s = .next t
    ∧ (∀ (i : SetId) (w : Way), (t.line i w).state = .free ∧ (t.line i w).tag = none
        ∧ (t.line i w).waiters = [] ∧ (t.line i w).current = [] ∧ (t.line i w).next = []
        ∧ (t.line i w).claim = none)
    ∧ ∀ i : SetId, (t.cacheSet i).waiting = [] ∧ (t.cacheSet i).claimed = none
        ∧ (t.cacheSet i).order = [0, 1, 2, 3]

/-- Power-on reset sets the Engine Control's record, the window, the Chain Unit, the Request Table, the
Table Logic, the policy, the poison list and the Memory Controller with every timer stopped. (That no
bus access is outstanding afterwards and that the waiting commands stay are the model's choices, log
entry 23.) -/
def Obligations.PowerOnResetSetsEveryBlock : Prop :=
  ∀ s : State, ∃ t, exec .powerOnReset s = .next t
    ∧ t.ec.engine = .cold ∧ t.ec.ending = .none ∧ t.ec.identity = none
    ∧ t.ec.resumeState = .running
    ∧ t.ec.stallHostFault = false ∧ t.ec.stallBadBatch = false
    ∧ t.ec.failureCause = .none ∧ t.ec.refusalCause = .none ∧ t.ec.refusedCommand = none
    ∧ t.ec.statusWriteFault = false ∧ t.ec.statusAddr = none ∧ t.ec.parkEnable = false
    ∧ t.ec.counters = .zero ∧ t.ec.intCause = 0 ∧ t.ec.intMask = 0 ∧ t.ec.lastRetired = 0
    ∧ t.ec.status = ⟨.nothing, 0, 0, none, false⟩
    ∧ t.ec.sweep.phase = .idle ∧ t.ec.sweep.outstanding = 0
    ∧ t.bi.setupL = 0 ∧ t.bi.setupH = 0 ∧ t.bi.accesses = []
    ∧ t.cu.phase = .idle ∧ t.cu.nextAddr = none ∧ t.cu.current = none ∧ t.cu.batches = []
    ∧ t.cu.anchor = none ∧ t.cu.nudgePending = false
    ∧ t.cu.parked = false ∧ t.cu.retireSeq = 0 ∧ t.cu.retirementOutstanding = false
    ∧ t.cu.releases = [] ∧ t.cu.releasesWaiting = [] ∧ t.cu.faulted = [] ∧ t.cu.badBatch = false
    ∧ (∀ k : SlotId, (t.slot k).state = .free) ∧ t.rt.age = [] ∧ t.rt.hold = none
    ∧ t.rt.faulted = []
    ∧ t.tl.size = 10 ∧ t.tl.seed = 0
    ∧ t.bc.policy = .back ∧ t.bc.poison = [] ∧ t.bc.overflow = false ∧ t.bc.flush = none
    ∧ t.mc.profile = none ∧ t.mc.rows = none ∧ t.mc.laneFaults = 0
    ∧ (∀ b : BankId, (t.bank b).state = .closed ∧ (t.bank b).queue = []
        ∧ (t.bank b).openWait = .stopped ∧ (t.bank b).holdMin = .stopped
        ∧ (t.bank b).closeWait = .stopped ∧ (t.bank b).idleClose = .stopped)
    ∧ (∀ g : GroupId, t.mc.near[g] = .stopped ∧ t.mc.far[g] = .stopped)
    ∧ t.mc.turnGap = .stopped ∧ t.mc.refreshWait = .stopped ∧ t.mc.refreshPeriod = .stopped
    ∧ t.mc.resetHold = .stopped ∧ t.mc.modeGap = .stopped
    ∧ t.mc.waits = [] ∧ t.mc.reads = [] ∧ t.mc.idleCandidates = [] ∧ t.mc.sequencer = .idle
    ∧ t.mc.refreshRunning = false ∧ t.mc.owed = 0 ∧ t.mc.committed = false
    ∧ t.pending = s.pending

/-- RESET in any state. The identity is kept unless a line was DIRTY, WRITING or REWRITE, or a discarded
access was a write. The cache, the Request Table and the Chain Unit are emptied; the poison list, the
policy, S and the seed are kept. In the Memory Controller what was not issued is discarded; ISSUED
accesses stay in their queues and are reported to no one; banks, timers and the refresh account are
kept; it accepts nothing unless the drain has ended already. In PROBING the sequencer stops and the
reset line is released. (That the chain start is kept and the sweep's next index becomes 0 are the
model's choices, log entry 8.) -/
def Obligations.EngineResetActsInAnyState : Prop :=
  ∀ s : State, ∃ t, exec .reset s = .next t
    ∧ ((s.ec.engine = .cold ∨ s.ec.engine = .probing) → t.ec.engine = .cold)
    ∧ (s.ec.engine = .failed → t.ec.engine = .failed)
    ∧ ((s.ec.engine = .ready ∨ s.ec.engine = .clearing ∨ s.ec.engine.serving = true) →
        t.ec.engine = .ready)
    ∧ t.ec.identity =
        (if (∃ (i : SetId) (w : Way), (s.line i w).state = .dirty ∨ (s.line i w).state = .writing
              ∨ (s.line i w).state = .rewrite)
            ∨ (∃ u ∈ s.mc.waits, u.direction.isWrite = true)
            ∨ (∃ (b : BankId), ∃ a ∈ (s.bank b).queue, a.issued = false
                ∧ a.body.direction.isWrite = true)
          then none else s.ec.identity)
    ∧ t.ec = { EngineControl.reset with
        engine := t.ec.engine, identity := t.ec.identity, failureCause := s.ec.failureCause,
        statusAddr := s.ec.statusAddr, parkEnable := s.ec.parkEnable, intMask := s.ec.intMask,
        status := t.ec.status }
    ∧ t.bi.setupL = s.bi.setupL ∧ t.bi.setupH = s.bi.setupH ∧ t.pending = s.pending
    ∧ (∀ i : SetId, t.cacheSet i = CacheSet.empty)
    ∧ t.bc.poison = s.bc.poison ∧ t.bc.overflow = s.bc.overflow ∧ t.bc.policy = s.bc.policy
    ∧ t.bc.flush = none ∧ t.tl = s.tl
    ∧ (∀ k : SlotId, t.slot k = Slot.empty) ∧ t.rt.age = [] ∧ t.rt.hold = none
    ∧ t.cu = { ChainUnit.reset with chainStart := s.cu.chainStart }
    ∧ (∀ a ∈ t.bi.accesses, a.live = true → a.kind = .statusWrite)
    ∧ (∀ b : BankId, t.bank b = { s.bank b with
        queue := ((s.bank b).queue.filter (·.issued)).map fun a => { a with orphan := true } })
    ∧ (t.mc.accepting = true ↔ ∀ b : BankId,
        ((s.bank b).state = .closed ∨ (s.bank b).state = .refreshing)
          ∧ ∀ a ∈ (s.bank b).queue, a.issued = false)
    ∧ t.mc.reads.length = s.mc.reads.length ∧ t.mc.near = s.mc.near ∧ t.mc.far = s.mc.far
    ∧ t.mc.turnGap = s.mc.turnGap ∧ t.mc.refreshWait = s.mc.refreshWait
    ∧ (s.ec.engine = .probing → t.mc.sequencer = .idle ∧ t.mc.resetHeld = false)
    ∧ t.mc.waits = [] ∧ t.mc.owed = s.mc.owed ∧ t.mc.committed = s.mc.committed
    ∧ t.mc.refreshPeriod = s.mc.refreshPeriod ∧ t.mc.rows = s.mc.rows
    ∧ t.mc.profile = (if s.ec.engine = .probing then none else s.mc.profile)
    ∧ t.mc.laneFaults = (if s.ec.engine = .probing then 0 else s.mc.laneFaults)

/-! ## Commands -/

/-- BRINGUP in COLD or FAILED: PROBING with the profile's read issued, or, from a misaligned setup
address, FAILED with PROFILE and no read, which raises STATE. -/
def Obligations.BringupReadsTheMemoryProfile : Prop :=
  ∀ s : State, (s.ec.engine = .cold ∨ s.ec.engine = .failed) → ∃ t, exec .bringup s = .next t
    ∧ t.mc = { s.mc with
        profile := none, rows := none, laneFaults := 0, sequencer := t.mc.sequencer,
        resetHeld := t.mc.resetHeld }
    ∧ t.ec = { s.ec with
        engine := t.ec.engine, failureCause := t.ec.failureCause, status := t.ec.status,
        intCause := t.ec.intCause }
    ∧ s.sameWindow t ∧ s.keepsAccesses t ∧ s.addsOnly t (· == .memoryProfileRead)
    ∧ t.cu = s.cu ∧ t.rt = s.rt ∧ t.tl = s.tl ∧ t.bc = s.bc
    ∧ (s.setupAddr.toNat % 64 = 0 →
        t.ec.engine = .probing ∧ t.ec.failureCause = .none ∧ t.ec.intCause = s.ec.intCause
          ∧ t.hasIssued .memoryProfileRead s.setupAddr 64 []
          ∧ t.mc.sequencer = .profile s.bi.nextTag ∧ t.mc.resetHeld = s.mc.resetHeld)
    ∧ (s.setupAddr.toNat % 64 ≠ 0 →
        t.ec.engine = .failed ∧ t.ec.failureCause = .profile ∧ t.mc.sequencer = .idle
          ∧ t.mc.resetHeld = false ∧ s.raisesCause t 8
          ∧ ∀ a ∈ t.bi.accesses, a ∉ s.bi.accesses → a.kind = .statusWrite)

/-- START in READY with no START that waits for its profile and no START's profile read outstanding on the
bus: the table profile's read is issued and the engine stays READY, or, from a misaligned setup address,
START is refused with PROFILE, which raises STATE. -/
def Obligations.StartReadsTheTableProfile : Prop :=
  ∀ s : State, s.ec.engine = .ready → s.ec.startRead = none →
    (∀ a ∈ s.bi.accesses, a.kind ≠ .tableProfileRead) → ∃ t, exec .start s = .next t
    ∧ t.ec = { s.ec with
        startRead := t.ec.startRead, refusalCause := t.ec.refusalCause, status := t.ec.status,
        intCause := t.ec.intCause }
    ∧ s.sameWindow t ∧ s.keepsAccesses t ∧ s.addsOnly t (· == .tableProfileRead)
    ∧ s.sameTablePath t ∧ t.cu = s.cu
    ∧ (s.setupAddr.toNat % 64 = 0 →
        t.ec.startRead = some s.bi.nextTag ∧ t.ec.refusalCause = s.ec.refusalCause
          ∧ t.ec.intCause = s.ec.intCause
          ∧ t.hasIssued .tableProfileRead (s.setupAddr + 64) 64 [])
    ∧ (s.setupAddr.toNat % 64 ≠ 0 →
        t.ec.startRead = none ∧ t.ec.refusalCause = .profile ∧ s.raisesCause t 8)

/-- STOP in RUNNING: STOPPING with ending STOP; the fetch phase by the table of R109; nothing of the
table path moves. With an access of the Chain Unit outstanding the chain stays open; with no batch open
and no retirement outstanding an anchor not yet released is released at once, whatever the phase. (What
the next address holds outside phase HEADER is the model's choice, log entry 33.) -/
def Obligations.StopInRunningDrainsTheChain : Prop :=
  ∀ s : State, s.ec.engine = .running →
    (s.outstanding AccessKind.ofChain = true → ∃ t, exec .stop s = .next t
      ∧ t.ec = { s.ec with
          engine := .stopping, ending := .stop, tableEmpty := s.allFree, chainClosed := false,
          status := t.ec.status }
      ∧ t.cu = { s.cu with
          phase := t.cu.phase, parked := t.cu.parked, anchor := t.cu.anchor,
          releases := t.cu.releases }
      ∧ s.sameWindow t ∧ s.keepsAccesses t ∧ s.addsOnly t AccessKind.isReleaseWrite
      ∧ s.sameTablePath t
      ∧ ((s.cu.phase = .taking ∨ s.cu.phase = .records ∨ s.cu.phase = .link
          ∨ s.cu.phase = .blocked) → t.cu.phase = s.cu.phase)
      ∧ (s.cu.phase = .header → s.outstanding (· == .headerRead) = true → t.cu.phase = .header)
      ∧ (s.cu.phase = .header → s.outstanding (· == .headerRead) = false → t.cu.phase = .ended)
      ∧ (s.cu.phase = .parked → t.cu.phase = .ended ∧ t.cu.parked = false)
      ∧ (s.cu.phase = .idle → t.cu.phase = .ended)
      ∧ (∀ a m, s.cu.batches = [] → s.cu.retirementOutstanding = false →
          s.cu.anchor = some ⟨a, m, false⟩ → t.hasIssued (.releaseWrite a) (a + 26) 1 [4]
            ∧ t.cu.anchor = some ⟨a, m, true⟩ ∧ t.cu.releases = s.cu.releases ++ [a])
      ∧ ((s.cu.batches ≠ [] ∨ s.cu.retirementOutstanding = true) →
          t.cu.anchor = s.cu.anchor ∧ t.cu.releases = s.cu.releases))
    ∧ (∀ a m, s.cu.phase = .parked → s.cu.batches = [] → s.cu.retirementOutstanding = false →
      s.cu.anchor = some ⟨a, m, false⟩ → ∃ t, exec .stop s = .next t
        ∧ t.ec = { s.ec with
            engine := .stopping, ending := .stop, tableEmpty := s.allFree, chainClosed := false,
            status := t.ec.status }
        ∧ t.cu = { s.cu with
            phase := .ended, parked := false, anchor := some ⟨a, m, true⟩,
            releases := s.cu.releases ++ [a] }
        ∧ t.hasIssued (.releaseWrite a) (a + 26) 1 [4] ∧ s.keepsAccesses t
        ∧ s.addsOnly t (· == .releaseWrite a) ∧ s.sameWindow t ∧ s.sameTablePath t)

/-- STOP or ABANDON in CLEARING with no ending set yet, while the cache discards its lines or writes of
the sweep are outstanding: the ending is set, the engine stays CLEARING, and WRITING becomes
DRAINING; nothing else changes. With an ending set already, nothing changes. -/
def Obligations.StopAndAbandonInClearingDrainTheSweep : Prop :=
  ∀ s : State, s.ec.engine = .clearing → s.statusLaw →
    (s.ec.ending = .none → (s.ec.sweep.phase = .discard ∨ s.ec.sweep.outstanding ≠ 0) →
      exec .stop s = .next { s with ec := { s.ec with
          ending := .stop
          sweep := { s.ec.sweep with
            phase := if s.ec.sweep.phase = .writing then .draining else s.ec.sweep.phase } } }
      ∧ exec .abandon s = .next { s with ec := { s.ec with
          ending := .abandon
          sweep := { s.ec.sweep with
            phase := if s.ec.sweep.phase = .writing then .draining else s.ec.sweep.phase } } })
    ∧ (s.ec.ending ≠ .none → exec .stop s = .next s ∧ exec .abandon s = .next s)

/-- RESUME in STALLED, no header read misaligned: both stall causes clear, every faulted access
outstanding again and none remembered. The engine is RUNNING again, or, from a stall during a STOP
with a faulted access of the Chain Unit, STOPPING with ending STOP. Step by step, in RUNNING: after a
refused batch the anchor's link is read, or, with no anchor, the header at the chain start; a parked
Chain Unit with a nudge pending reads its link; what waited is issued: the TAKEN write, the link read,
the record reads of the slots given, the result writes, the header read, the retirement, the releases,
the buffer transfers. A waiting header address that is misaligned is refused, which stalls the engine
again. (Where the TAKEN write and the link read stand among these is the model's choice, log entry 27,
and that a misaligned address is refused here is log entry 15's.) -/
def Obligations.ResumeReissuesFaultedAccesses : Prop :=
  (∀ s : State, s.ec.engine = .stalled →
    (∀ a, s.cu.nextAddr = some a → a.toNat % 64 = 0) → s.cu.chainStart.toNat % 64 = 0 →
    (s.ec.resumeState = .running
      ∨ (s.ec.resumeState = .stopping ∧ s.ec.chainClosed = false
        ∧ ∃ a ∈ s.cu.faulted, a.live = true ∧ a.kind.ofChain = true)) →
    ∃ t, exec .resume s = .next t
      ∧ (s.ec.resumeState = .running → t.ec = { s.ec with
          engine := .running, stallHostFault := false, stallBadBatch := false,
          status := t.ec.status })
      ∧ (s.ec.resumeState = .stopping → t.ec = { s.ec with
          engine := .stopping, ending := .stop, stallHostFault := false, stallBadBatch := false,
          tableEmpty := t.ec.tableEmpty, status := t.ec.status })
      ∧ s.sameWindow t ∧ s.keepsAccesses t
      ∧ (∀ a ∈ s.cu.faulted, a ∈ t.bi.accesses) ∧ (∀ a ∈ s.rt.faulted, a ∈ t.bi.accesses)
      ∧ t.cu.faulted = [] ∧ t.rt.faulted = [] ∧ t.cu.badBatch = false
      ∧ t.cu.retireSeq = s.cu.retireSeq ∧ t.tl = s.tl ∧ t.bc = s.bc ∧ t.mc = s.mc)
  ∧ ∀ s : State, s.ec.engine = .stalled → s.ec.resumeState = .running →
    s.cu.chainStart.toNat % 64 = 0 →
    (∀ k ∈ s.cu.given ++ s.rt.unreported, (s.slot k).state ≠ .free) →
    let awaited := fun k : AccessKind => s.outstanding (· == k)
      || s.cu.faulted.any fun a => a.live && a.kind == k
    ∃ t, exec .resume s = .next t
      ∧ (s.cu.badBatch = true → s.cu.given = [] →
        (∀ n, s.cu.anchor = some n → t.cu.phase = .link ∧ t.hasIssued .linkRead n.addr 8 [])
        ∧ (s.cu.anchor = none → t.cu.phase = .header ∧ t.cu.nextAddr = some s.cu.chainStart
          ∧ (s.cu.batches.length < 8 → s.readsHeader = false →
            t.hasIssued .headerRead s.cu.chainStart 64 [])))
      ∧ (s.cu.badBatch = false →
        (∀ n, s.cu.phase = .parked → s.cu.nudgePending = true → s.cu.given = [] →
          s.cu.anchor = some n → t.cu.phase = .link ∧ t.cu.parked = false
            ∧ t.cu.nudgePending = false ∧ t.hasIssued .linkRead n.addr 8 [])
        ∧ (∀ c, s.cu.phase = .taking → s.cu.current = some c → awaited .takenWrite = false →
          t.hasIssued .takenWrite (c + 26) 1 [2])
        ∧ (∀ n, s.cu.phase = .link → s.cu.anchor = some n → awaited .linkRead = false →
          t.hasIssued .linkRead n.addr 8 [])
        ∧ (∀ x, s.cu.phase = .header → s.cu.given = [] → s.cu.nextAddr = some x →
          s.cu.batches.length < 8 →
          (x.toNat % 64 = 0 → s.readsHeader = false →
            t.cu.phase = .header ∧ t.hasIssued .headerRead x 64 [])
          ∧ (x.toNat % 64 ≠ 0 → t.cu.phase = .blocked ∧ t.cu.badBatch = true
            ∧ s.raisesCause t 4
            ∧ t.ec = { s.ec with
                engine := .stalled, ending := .none, stallHostFault := false,
                stallBadBatch := true, status := t.ec.status, intCause := t.ec.intCause })))
      ∧ t.cu.given = [] ∧ t.rt.unreported = []
      ∧ (∀ k ∈ s.cu.given, t.hasIssued (.recordRead k)
          (recordAddr (s.slot k).batch (s.slot k).index) 64 [])
      ∧ (∀ k ∈ s.rt.unreported, (t.slot k).state = .reporting ∧ t.hasIssued (.resultWrite k)
          (recordAddr (s.slot k).batch (s.slot k).index + 40) 16
          (resultBytes ((s.slot k).result.getD (.bare .done))))
      ∧ ((∀ a, s.cu.nextAddr = some a → a.toNat % 64 = 0) →
        (∀ b rest, s.cu.batches = b :: rest → b.doneCount = b.recordCount →
          s.cu.retirementOutstanding = false → t.cu.retirementOutstanding = true
            ∧ t.hasIssued .retirementWrite (b.addr + 16) 11
              (retirementBytes (s.cu.retireSeq + 1) b.doneCount))
        ∧ t.cu.releasesWaiting = [] ∧ t.cu.releases = s.cu.releases ++ s.cu.releasesWaiting
        ∧ ∀ a ∈ s.cu.releasesWaiting, t.hasIssued (.releaseWrite a) (a + 26) 1 [4])
      ∧ ∀ k ∈ s.rt.age, ∀ r, (s.slot k).transfer = .waiting → (s.slot k).request = some r →
        k ∉ s.rt.unreported →
        (∀ a ∈ s.rt.faulted, a.kind ≠ .bufferRead k ∧ a.kind ≠ .bufferWrite k) →
        (t.slot k).transfer = .outstanding
        ∧ ((s.slot k).state = .loading → t.hasIssued (.bufferRead k) r.operand 128 [])
        ∧ ∀ c im, (s.slot k).state = .storing → (s.slot k).context = some c →
          c.image = some im → t.hasIssued (.bufferWrite k) r.operand 128 im.bytes

/-- ABANDON in RUNNING, STALLED or STOPPING for a STOP: STOPPING with ending ABANDON, the stall causes
and the faulted accesses forgotten, and every slot by the table of R91: what is not dispatched or not
reported is FREE at once, or once its outstanding transfer has ended; what is at work is untouched.
While an access of the Chain Unit is outstanding the batches stay; with none the chain is closed at
once, and with every slot FREE the engine is READY. In STOPPING the change of the ending alone is no
status update. A second ABANDON changes nothing. (What the next address holds outside phase HEADER is
the model's choice, log entry 33; that the current batch, the retirement outstanding mark and the batches
with release writes are kept until the close is log entry 34's.) -/
def Obligations.AbandonDiscardsWhatIsNotDispatched : Prop :=
  (∀ s : State, (s.ec.engine = .running ∨ s.ec.engine = .stalled
      ∨ (s.ec.engine = .stopping ∧ s.ec.ending = .stop)) → ∃ t, exec .abandon s = .next t
      ∧ s.sameWindow t ∧ s.keepsAccesses t ∧ s.addsOnly t (fun _ => false)
      ∧ t.rt.hold = none ∧ t.rt.faulted = [] ∧ t.rt.unreported = []
      ∧ (∀ k : SlotId,
          (((s.slot k).state = .waitingKey ∨ (s.slot k).state = .held
            ∨ (s.slot k).state = .finished) → t.slot k = Slot.empty)
          ∧ (((s.slot k).state = .visiting ∨ (s.slot k).state = .awaitingWrite) →
            t.slot k = s.slot k)
          ∧ ((s.slot k).state = .fetching → t.slot k =
            if s.outstanding (· == .recordRead k) then { s.slot k with discarded := true }
            else Slot.empty)
          ∧ ((s.slot k).state = .loading → t.slot k =
            if (s.slot k).transfer = .outstanding then { s.slot k with discarded := true }
            else Slot.empty)
          ∧ ((s.slot k).state = .storing → t.slot k =
            if (s.slot k).transfer = .outstanding then s.slot k else Slot.empty)
          ∧ ((s.slot k).state = .reporting → t.slot k =
            if s.outstanding (· == .resultWrite k) then s.slot k else Slot.empty))
      ∧ t.tl = s.tl ∧ t.bc = s.bc ∧ t.mc = s.mc
      ∧ (s.outstanding AccessKind.ofChain = true →
        t.ec = { s.ec with
          engine := .stopping, ending := .abandon, stallHostFault := false, stallBadBatch := false,
          tableEmpty := t.allFree, chainClosed := false, status := t.ec.status }
        ∧ t.cu = { s.cu with
            phase := .ended, nudgePending := false, faulted := [], badBatch := false,
            releasesWaiting := [], parked := false, given := t.cu.given }
        ∧ (s.ec.engine = .stopping → s.cu.parked = false → s.statusLaw → t.bi = s.bi
          ∧ t.ec.status = { s.ec.status with stallReportIssued := false }))
      ∧ (s.outstanding AccessKind.ofChain = false →
        t.cu = { s.cu with
          phase := .idle, nudgePending := false, faulted := [], badBatch := false,
          releasesWaiting := [], parked := false, given := t.cu.given, anchor := none,
          current := none, batches := [], nextAddr := none, retirementOutstanding := false,
          releases := [] }
        ∧ (t.allFree = false → t.ec = { s.ec with
            engine := .stopping, ending := .abandon, stallHostFault := false,
            stallBadBatch := false, tableEmpty := false, chainClosed := true,
            status := t.ec.status })
        ∧ (t.allFree = true → s.raisesCause t 8 ∧ t.ec = { s.ec with
            engine := .ready, ending := .none, stallHostFault := false, stallBadBatch := false,
            tableEmpty := false, chainClosed := false, status := t.ec.status,
            intCause := t.ec.intCause })))
  ∧ ∀ s : State, s.ec.engine = .stopping → s.ec.ending = .abandon → s.statusLaw →
    exec .abandon s = .next s

/-- A command that is illegal in the engine's state, and a value of CMD that names no command, are
recorded as the refused command; nothing else changes but the status write this update may issue. START
is illegal in READY too while a START waits for its profile, or while the profile read of an earlier one
is outstanding, which an engine reset may have discarded meanwhile. -/
def Obligations.IllegalCommandsAreRecorded : Prop :=
  ∀ (c : Instr) (code : Byte) (s : State),
    ((c = .bringup ∧ code = 1 ∧ s.ec.engine ≠ .cold ∧ s.ec.engine ≠ .failed)
      ∨ (c = .start ∧ code = 2 ∧ (s.ec.engine ≠ .ready ∨ s.ec.startRead ≠ none
          ∨ ∃ a ∈ s.bi.accesses, a.kind = .tableProfileRead))
      ∨ (c = .stop ∧ code = 3 ∧ s.ec.engine ≠ .clearing ∧ s.ec.engine ≠ .running)
      ∨ (c = .resume ∧ code = 4 ∧ s.ec.engine ≠ .stalled)
      ∨ (c = .abandon ∧ code = 5 ∧ s.ec.engine ≠ .clearing ∧ s.ec.engine.serving = false)
      ∨ (∃ v : Word, c = .illegalCommand v ∧ (v.toNat = 0 ∨ 6 < v.toNat) ∧ code = v.setWidth 8)) →
    ∃ t, exec c s = .next t
      ∧ t.ec = { s.ec with refusedCommand := some code, status := t.ec.status }
      ∧ s.sameWindow t ∧ s.keepsAccesses t ∧ s.addsOnly t (fun _ => false)
      ∧ s.sameTablePath t ∧ t.cu = s.cu
      ∧ (s.ec.statusAddr = none → t.bi = s.bi ∧ t.ec.status = s.ec.status)

/-- A nudge, by engine state and fetch phase (R102), from a state that owes no status write. -/
def Obligations.NudgeActsByEngineState : Prop :=
  ∀ (s : State) (v : Word), s.statusLaw →
    (s.ec.engine = .running → s.cu.phase = .parked → ∀ a, s.cu.anchor = some a →
      ∃ t, exec (.nudge v) s = .next t
        ∧ t.cu = { s.cu with phase := .link, parked := false }
        ∧ t.hasIssued .linkRead a.addr 8 [] ∧ s.keepsAccesses t ∧ s.addsOnly t (· == .linkRead)
        ∧ s.sameTablePath t ∧ s.sameWindow t ∧ t.ec = { s.ec with status := t.ec.status })
    ∧ ((s.ec.engine = .running ∧ s.cu.phase ≠ .parked) ∨ s.ec.engine = .stalled
        ∨ s.ec.engine = .stopping →
      exec (.nudge v) s = .next { s with cu := { s.cu with nudgePending := true } })
    ∧ (s.ec.engine ≠ .running → s.ec.engine ≠ .stalled → s.ec.engine ≠ .stopping →
      exec (.nudge v) s = .next s)

/-- A full-width write of INTCAUSE clears each cause written as one; one of INTMASK replaces the mask; a
narrower write does nothing. The interrupt line is asserted exactly while a cause is set whose enable
is set. -/
def Obligations.CauseAndMaskWrites : Prop :=
  ∀ (s : State) (v : Word) (be : BitVec 4),
    (∃ t, exec (.intcauseWrite v be) s = .next t ∧ t = { s with ec := { s.ec with
        intCause := t.ec.intCause } }
      ∧ ∀ i < 5, t.ec.intCause.getLsbD i
          = (s.ec.intCause.getLsbD i && !(be == 15 && v.getLsbD i)))
    ∧ (∃ t, exec (.intmaskWrite v be) s = .next t ∧ t = { s with ec := { s.ec with
        intMask := t.ec.intMask } }
      ∧ ∀ i < 5, t.ec.intMask.getLsbD i
          = if be = 15 then v.getLsbD i else s.ec.intMask.getLsbD i)
    ∧ (s.interruptLine = true ↔
      ∃ i < 5, s.ec.intCause.getLsbD i = true ∧ s.ec.intMask.getLsbD i = true)

/-- A full-width write of SETUPL or SETUPH stores all 32 bits; a narrower one, a write of STATE and a
write of an offset from 1Ch on do nothing; a write of CMD, NUDGE, INTCAUSE or INTMASK is the command
of that register, and a narrower write of CMD nothing (from a state that owes no status write). Reads
return what each register holds, zero at CMD, at NUDGE and from 1Ch on, and at STATE each field at its
place; a byte read returns the addressed byte. That an ILLEGAL_COMMAND with a legal code is that
command is the model's choice, log entry 21. -/
def Obligations.RegisterWritesActByOffset : Prop :=
  (∀ (s : State) (v : Word) (be : BitVec 4), s.statusLaw →
    exec (.registerWrite 12 v 15) s = .next { s with bi := { s.bi with setupL := v } }
    ∧ exec (.registerWrite 16 v 15) s = .next { s with bi := { s.bi with setupH := v } }
    ∧ (be ≠ 15 → exec (.registerWrite 12 v be) s = .next s
        ∧ exec (.registerWrite 16 v be) s = .next s)
    ∧ exec (.registerWrite 4 v be) s = .next s
    ∧ (∀ off, 28 ≤ off → off < 4096 → exec (.registerWrite off v be) s = .next s)
    ∧ exec (.registerWrite 0 1 15) s = exec .bringup s
    ∧ exec (.registerWrite 0 2 15) s = exec .start s
    ∧ exec (.registerWrite 0 3 15) s = exec .stop s
    ∧ exec (.registerWrite 0 4 15) s = exec .resume s
    ∧ exec (.registerWrite 0 5 15) s = exec .abandon s
    ∧ exec (.registerWrite 0 6 15) s = exec .reset s
    ∧ exec (.registerWrite 0 v 15) s = exec (.illegalCommand v) s
    ∧ (be ≠ 15 → exec (.registerWrite 0 v be) s = .next s)
    ∧ (be ≠ 0 → exec (.registerWrite 8 v be) s = exec (.nudge v) s)
    ∧ exec (.registerWrite 20 v be) s = exec (.intcauseWrite v be) s
    ∧ exec (.registerWrite 24 v be) s = exec (.intmaskWrite v be) s)
  ∧ (∀ s : State, s.readRegister 0 = 0 ∧ s.readRegister 8 = 0
    ∧ s.readRegister 12 = s.bi.setupL ∧ s.readRegister 16 = s.bi.setupH
    ∧ (s.readRegister 20).toNat = s.ec.intCause.toNat
    ∧ (s.readRegister 24).toNat = s.ec.intMask.toNat
    ∧ (∀ off, 28 ≤ off → s.readRegister off = 0)
    ∧ ∀ off, s.readRegisterByte off
        = (s.readRegister (off - off % 4)).extractLsb' (8 * (off % 4)) 8)
  ∧ ∀ s : State,
    let state := fun off n => ((s.readRegister 4).extractLsb' off n).toNat
    state 0 3 = s.ec.engine.code
    ∧ state 3 1 = (if s.ec.stallHostFault then 1 else 0)
    ∧ state 4 1 = (if s.ec.stallBadBatch then 1 else 0)
    ∧ state 5 1 = (if s.ec.statusWriteFault then 1 else 0)
    ∧ state 6 1 = (if s.cu.parked then 1 else 0)
    ∧ state 7 1 = (if s.ec.refusedCommand = none then 0 else 1)
    ∧ state 8 3 = s.ec.failureCause.code ∧ state 11 2 = s.ec.refusalCause.code ∧ state 13 3 = 0
    ∧ state 16 8 = (s.ec.refusedCommand.getD 0).toNat
    ∧ state 24 8 = s.mc.laneFaults.toNat

/-! ## Bring-up -/

/-- The end of the memory profile's read: a profile in its ranges is taken and the device reset phase is
awaited; any other fails bring-up with PROFILE, a fault with BUS, which raises STATE. -/
def Obligations.MemoryProfileReadEnds : Prop :=
  ∀ (s : State) (tag : Nat) (a : BusAccess) (d : Block64),
    s.awaits tag a → a.kind = .memoryProfileRead →
    (∀ p, decodeMemoryProfile d = some p → ∃ t, exec (.memoryProfileArrival tag d) s = .next t
      ∧ s.endsAccess tag t ∧ s.addsOnly t (fun _ => false) ∧ s.sameWindow t
      ∧ t.cu = s.cu ∧ t.rt = s.rt ∧ t.tl = s.tl ∧ t.bc = s.bc
      ∧ t.mc = { s.mc with profile := some p, sequencer := .awaitingReset }
      ∧ t.ec = { s.ec with status := t.ec.status })
    ∧ ∀ (c : Instr) (cause : FailureCause),
      ((c = .memoryProfileArrival tag d ∧ decodeMemoryProfile d = none ∧ cause = .profile)
        ∨ (c = .memoryProfileFault tag ∧ cause = .bus)) → ∃ t, exec c s = .next t
      ∧ s.endsAccess tag t ∧ s.addsOnly t (fun _ => false) ∧ s.sameWindow t
      ∧ t.cu = s.cu ∧ t.rt = s.rt ∧ t.tl = s.tl ∧ t.bc = s.bc
      ∧ t.mc = { s.mc with sequencer := .idle, resetHeld := false }
      ∧ t.ec = { s.ec with
          engine := .failed, failureCause := cause, status := t.ec.status,
          intCause := t.ec.intCause }
      ∧ s.raisesCause t 8

/-- Decode of the memory profile: the fields stand at their offsets, and the profile is accepted exactly
when every checked field lies in its range. -/
def Obligations.MemoryProfileIsAcceptedInRange : Prop :=
  (∀ (d : Block64) (p : MemoryProfile), decodeMemoryProfile d = some p →
    p.openWait = field d 0 1 ∧ p.closeWait = field d 1 1 ∧ p.holdMin = field d 2 1
      ∧ p.gapNear = field d 3 1 ∧ p.gapFar = field d 4 1 ∧ p.turnGap = field d 5 1
      ∧ p.alertWait = field d 6 1 ∧ p.refreshWait = field d 7 1 ∧ p.idleClose = field d 8 1
      ∧ p.modeGap = field d 9 1 ∧ p.refreshPeriod = field d 10 2 ∧ p.resetHold = field d 12 2
      ∧ (p.closePolicy = .openPage ↔ field d 14 1 = 0)
      ∧ (p.closePolicy = .closeEarly ↔ field d 14 1 = 1)
      ∧ ∀ i : Fin 4, p.modeWords[i].toNat = field d (16 + 4 * i) 4)
  ∧ ∀ d : Block64, (decodeMemoryProfile d).isSome = true ↔
    (field d 14 1 = 0 ∨ field d 14 1 = 1)
      ∧ (∀ i < 10, 1 ≤ field d i 1) ∧ 256 ≤ field d 10 2 ∧ 256 ≤ field d 12 2

/-- The device phases: the reset phase waits for what is in flight, then holds the line with every bank
CLOSED and its queue empty; the hold's end releases it; MODE_GAP's end issues MODE_SET of the next
index, or after the fourth the first PATTERN_READ. (That nothing is in flight once no read is
outstanding and every queue is empty, and that the controller accepts accesses from the reset phase
on, are read from R147 and R132 by inference: log entry 29, DEDUCED, unsafe.) -/
def Obligations.DevicePhasesFollowInOrder : Prop :=
  ∀ (s : State) (p : MemoryProfile), s.mc.profile = some p →
    (s.mc.sequencer = .awaitingReset → (s.mc.reads ≠ [] ∨ ∃ b : BankId, (s.bank b).queue ≠ []) →
      exec .deviceResetPhase s = .next s)
    ∧ (s.mc.sequencer = .awaitingReset → s.mc.reads = [] → (∀ b : BankId, (s.bank b).queue = []) →
      s.mc.waits = [] → s.ec.sweep.phase = .idle →
      exec .deviceResetPhase s = .next { s with mc := { s.mc with
        banks := Vector.replicate 8 Bank.empty, idleCandidates := [], resetHeld := true,
        resetHold := .running (some p.resetHold), sequencer := .resetHold, accepting := true } })
    ∧ (s.mc.sequencer = .resetHold → s.mc.resetHold.isRunning = true →
      exec .resetHoldExpiry s = .next { s with mc := { s.mc with
        resetHold := .stopped, resetHeld := false, modeGap := .running (some p.modeGap),
        sequencer := .mode 0 } })
    ∧ (∀ i : Fin 4, s.mc.sequencer = .mode i → s.mc.modeGap.isRunning = true →
      exec .modeGapExpiry s = .next { s with mc := { s.mc with
        port := some (.modeSet i p.modeWords[i]), modeGap := .running (some p.modeGap),
        sequencer := .mode (i + 1) } })
    ∧ (s.mc.sequencer = .mode 4 → s.mc.modeGap.isRunning = true →
      exec .modeGapExpiry s = .next { s with mc := { s.mc with
        port := some (.patternRead 0), modeGap := .stopped,
        reads := s.mc.reads ++ [.pattern 0 false], sequencer := .lanes 0 } })

/-- The data of PATTERN_READ(i): a lane is marked when one of its sixteen bytes differs; the next pattern
is read; after the fourth a marked lane fails bring-up with LANES, which raises STATE, and with none
the first access of the size probe is handed over: the write of M14 to row 16384. The byte expected in
lane k, beat j of each pattern. -/
def Obligations.LaneCheckMarksFailingLanes : Prop :=
  (∀ (s : State) (i : Nat) (rest : List OutstandingRead) (d : Block128),
    s.mc.reads = .pattern i false :: rest → s.mc.accepting = true → ∃ t,
      exec (.readDataArrival d) s = .next t ∧ s.sameWindow t ∧ s.keepsAccesses t
      ∧ s.addsOnly t (fun _ => false) ∧ t.cu = s.cu ∧ t.rt = s.rt ∧ t.tl = s.tl ∧ t.bc = s.bc
      ∧ (∀ k < 8, t.mc.laneFaults.getLsbD k = true ↔ (s.mc.laneFaults.getLsbD k = true
          ∨ ∃ j < 16, d.extractLsb' (8 * (8 * j + k)) 8 ≠ expectedByte i j k))
      ∧ (i < 3 → t.mc = { s.mc with
            laneFaults := t.mc.laneFaults, sequencer := .lanes (i + 1),
            reads := rest ++ [.pattern (i + 1) false], port := some (.patternRead (i + 1)) }
          ∧ t.ec = { s.ec with status := t.ec.status })
      ∧ (3 ≤ i → t.mc.laneFaults ≠ 0 → t.mc = { s.mc with
            laneFaults := t.mc.laneFaults, sequencer := .idle, resetHeld := false, reads := rest }
          ∧ t.ec = { s.ec with
              engine := .failed, failureCause := .lanes, status := t.ec.status,
              intCause := t.ec.intCause }
          ∧ s.raisesCause t 8)
      ∧ (3 ≤ i → t.mc.laneFaults = 0 → t.mc.sequencer = .probe 0 [] ∧ t.mc.reads = rest
          ∧ t.handsOver ⟨.direct 0 16384 0, .write Marker.m14.image, .bringup⟩
          ∧ t.ec = { s.ec with status := t.ec.status }))
  ∧ ∀ j k : Nat, expectedByte 0 j k = 0x00 ∧ expectedByte 1 j k = 0xFF
    ∧ expectedByte 2 j k = (if j % 2 = 0 then 0x55 else 0xAA)
    ∧ expectedByte 3 j k = (if j % 8 = k then 0x01 <<< k else 0x00)

/-- The last read of the size probe passes its check: the three results give the row count by the table
of R149 and bring-up's last phase takes place, or bring-up fails with SIZE; STATE is raised either way.
Each access before the last hands over the next one as it ends: a read by good data, which is named
first, a write by the expiry of its ALERT_WAIT. The table has four lines; the seven accesses stand in
their order; an arrival is named by the marker it equals in full, check word included; a marker is the
empty bucket with slot 0 occupied and its number in byte 0 of the key. -/
def Obligations.SizeProbeDetectsTheRowCount : Prop :=
  (∀ (s : State) (b : BankId) (age : Nat) (rest : List OutstandingRead) (a : Access) (d : Block128)
    (r1 r2 : Option Marker),
    s.mc.reads = .access b age :: rest → s.queued b age = some a → a.orphan = false →
    a.body.requester = .bringup → (Image.ofBits d).valid = true →
    s.mc.sequencer = .probe 6 [r1, r2] → s.mc.waits = [] → s.mc.accepting = true → ∃ t,
      exec (.readDataArrival d) s = .next t ∧ s.raisesCause t 8
      ∧ (∀ n, detectedRows [r1, r2, Marker.ofImage (Image.ofBits d)] = some n →
          t.mc = { s.mc with
            banks := t.mc.banks, reads := rest, rows := some n, owed := 0, committed := false,
            refreshPeriod := .running (s.mc.profile.map MemoryProfile.refreshPeriod),
            refreshRunning := true, sequencer := .idle }
          ∧ t.ec = { s.ec with
              engine := .ready, identity := none, counters := .zero, status := t.ec.status,
              intCause := t.ec.intCause }
          ∧ t.bc = { s.bc with poison := [], overflow := false })
      ∧ (detectedRows [r1, r2, Marker.ofImage (Image.ofBits d)] = none →
          t.mc = { s.mc with
            banks := t.mc.banks, reads := rest, sequencer := .idle, resetHeld := false }
          ∧ t.ec = { s.ec with
              engine := .failed, failureCause := .size, status := t.ec.status,
              intCause := t.ec.intCause }
          ∧ t.bc = s.bc)
      ∧ (t.bank b).queue = (s.bank b).queue.filter (fun c => c.age != age) ∧ s.onlyBank t b
      ∧ t.cu = s.cu ∧ t.rt = s.rt ∧ t.tl = s.tl ∧ s.sameWindow t)
  ∧ (∀ (s : State) (b : BankId) (a : Access) (i row : Nat) (marker : Option Marker)
    (found found' : List (Option Marker)) (c : Instr),
    a.orphan = false → a.body.requester = .bringup → s.mc.sequencer = .probe i found → i < 6 →
    probeAccesses[i + 1]? = some (row, marker) → s.mc.waits = [] → s.mc.accepting = true →
    ((∃ d rest, c = .readDataArrival d ∧ s.mc.reads = .access b a.age :: rest
        ∧ s.queued b a.age = some a ∧ (Image.ofBits d).valid = true
        ∧ found' = found ++ [Marker.ofImage (Image.ofBits d)])
      ∨ (c = .alertWaitExpiry a.age ∧ s.openWindow a.age = some (b, a) ∧ found' = found)) →
    ∃ t, exec c s = .next t ∧ t.mc.sequencer = .probe (i + 1) found'
      ∧ t.handsOver ⟨.direct 0 row 0,
          match marker with
          | some m => .write m.image
          | none => .read, .bringup⟩
      ∧ t.ec = { s.ec with status := t.ec.status } ∧ s.keepsAccesses t
      ∧ s.addsOnly t (fun _ => false) ∧ t.cu = s.cu ∧ t.rt = s.rt ∧ t.tl = s.tl ∧ t.bc = s.bc
      ∧ s.sameWindow t)
  ∧ (∀ (l : List (Option Marker)) (n : Nat), detectedRows l = some n ↔
      (l = [some .m0, some .m0, some .m0] ∧ n = 4096)
      ∨ (l = [some .m12, some .m0, some .m0] ∧ n = 8192)
      ∨ (l = [some .m12, some .m13, some .m0] ∧ n = 16384)
      ∨ (l = [some .m12, some .m13, some .m14] ∧ n = 32768))
  ∧ probeAccesses = [(16384, some .m14), (8192, some .m13), (4096, some .m12), (0, some .m0),
      (4096, none), (8192, none), (16384, none)]
  ∧ (∀ (im : Image) (m : Marker), Marker.ofImage im = some m ↔ im = m.image.sealed)
  ∧ ∀ m : Marker, m.image = ⟨1, 0, 0, 0,
      #v[⟨match m with | .m14 => 15 | .m13 => 14 | .m12 => 13 | .m0 => 1, 0⟩, ⟨0, 0⟩, ⟨0, 0⟩,
        ⟨0, 0⟩, ⟨0, 0⟩]⟩

/-- The end of the table profile's read refuses START and leaves the engine READY: a fault with BUS, a
profile that fails a check with PROFILE, and one that passes them without the clear flag under
another identity with IDENTITY; STATE is raised. The profile's fields stand at their offsets, and it
passes its checks exactly when each checked field lies in its range. -/
def Obligations.TableProfileReadRefusesStart : Prop :=
  (∀ (s : State) (tag : Nat) (a : BusAccess) (d : Block64),
    s.awaits tag a → a.kind = .tableProfileRead → s.ec.engine = .ready →
    ∀ (c : Instr) (cause : RefusalCause),
      ((c = .tableProfileFault tag ∧ cause = .bus)
        ∨ (c = .tableProfileArrival tag d ∧ (decodeTableProfile d).wellFormed s.mc.rows = false
          ∧ cause = .profile)
        ∨ (c = .tableProfileArrival tag d ∧ (decodeTableProfile d).wellFormed s.mc.rows = true
          ∧ (decodeTableProfile d).clear = false
          ∧ s.ec.identity ≠ some (decodeTableProfile d).identity ∧ cause = .identity)) →
      ∃ t, exec c s = .next t
        ∧ t.ec = { s.ec with
            refusalCause := cause, startRead := none, status := t.ec.status,
            intCause := t.ec.intCause }
        ∧ s.raisesCause t 8
        ∧ s.sameTablePath t ∧ t.cu = s.cu ∧ s.endsAccess tag t ∧ s.addsOnly t (fun _ => false)
        ∧ s.sameWindow t)
  ∧ ∀ d : Block64,
    let p := decodeTableProfile d
    p.size = field d 0 1 ∧ p.seed.toNat = field d 8 8 ∧ p.chainStart.toNat = field d 16 8
      ∧ p.statusAddr.toNat = field d 24 8
      ∧ (p.clear = true ↔ field d 2 1 % 2 = 1) ∧ (p.parkEnable = true ↔ field d 2 1 / 2 % 2 = 1)
      ∧ (writePolicyOf p.policyCode = some .through ↔ field d 1 1 = 0)
      ∧ (writePolicyOf p.policyCode = some .back ↔ field d 1 1 = 1)
      ∧ (writePolicyOf p.policyCode = some .adaptive ↔ field d 1 1 = 2)
      ∧ ∀ rows : Nat, p.wellFormed (some rows) = true ↔
        10 ≤ field d 0 1 ∧ field d 0 1 ≤ 24 ∧ 2 ^ field d 0 1 * 128 ≤ 8 * rows * 8192
          ∧ field d 1 1 ≤ 2 ∧ field d 2 1 < 4
          ∧ field d 16 8 ≠ 0 ∧ field d 16 8 % 64 = 0 ∧ field d 24 8 ≠ 0 ∧ field d 24 8 % 64 = 0

/-- The table profile is accepted: S, seed, policy, chain start, status block address and PARK enable
are taken. Without the clear flag the engine is RUNNING and the header at the chain start is read; with
it the engine is CLEARING, the identity NONE, the poison list empty and every CLEAN or DIRTY line FREE;
while another line is not, the sweep discards and writes nothing; with every line FREE at once it begins
to write. The status write of the event goes to the new address; it carries the causes that waited and
no new one. (That the sweep's next index is 0 already while it discards is the model's choice, log entry
8.) -/
def Obligations.TableProfileArrivalAcceptsStart : Prop :=
  ∀ (s : State) (tag : Nat) (a : BusAccess) (d : Block64) (p : TableProfile),
    s.awaits tag a → a.kind = .tableProfileRead → s.ec.engine = .ready → s.ec.ending = .none →
    s.outstanding (· == .headerRead) = false →
    p = decodeTableProfile d → p.wellFormed s.mc.rows = true →
    (p.clear = true ∨ s.ec.identity = some ⟨p.size, p.seed⟩) →
    ∃ t, exec (.tableProfileArrival tag d) s = .next t
      ∧ t.tl.size = p.size ∧ t.tl.seed = p.seed ∧ some t.bc.policy = writePolicyOf p.policyCode
      ∧ t.cu = { ChainUnit.reset with
          phase := t.cu.phase, nextAddr := some p.chainStart, chainStart := p.chainStart,
          retireSeq := s.cu.retireSeq }
      ∧ t.ec = { s.ec with
          engine := t.ec.engine, identity := t.ec.identity, statusAddr := some p.statusAddr,
          parkEnable := p.parkEnable, refusalCause := .none, startRead := none,
          sweep := t.ec.sweep, status := t.ec.status }
      ∧ s.sameWindow t ∧ t.rt = s.rt ∧ s.endsAccess tag t ∧ s.addsOnly t (· == .headerRead)
      ∧ (s.ec.status.outstanding = none →
          t.ec.status.attachedCauses = s.ec.status.waitingCauses ∧ t.ec.status.waitingCauses = 0
          ∧ t.hasIssued .statusWrite p.statusAddr t.statusBlock.length t.statusBlock)
      ∧ (p.clear = false → t.ec.engine = .running ∧ t.ec.identity = s.ec.identity
          ∧ t.cu.phase = .header ∧ t.hasIssued .headerRead p.chainStart 64 []
          ∧ t.bc = { s.bc with policy := t.bc.policy } ∧ t.mc = s.mc ∧ t.ec.sweep = s.ec.sweep)
      ∧ (p.clear = true → t.ec.engine = .clearing ∧ t.ec.identity = none
          ∧ t.cu.phase = .idle ∧ t.bc.poison = [] ∧ t.bc.overflow = false
          ∧ (∀ (i : SetId) (w : Way), t.line i w =
              if (s.line i w).state = .clean ∨ (s.line i w).state = .dirty then Line.empty
              else s.line i w)
          ∧ ((∃ (i : SetId) (w : Way), (s.line i w).state = .filling
              ∨ (s.line i w).state = .writing ∨ (s.line i w).state = .rewrite) →
            t.ec.sweep = ⟨.discard, 0, 0⟩ ∧ t.mc = s.mc)
          ∧ ((∀ (i : SetId) (w : Way), (s.line i w).state = .free ∨ (s.line i w).state = .clean
              ∨ (s.line i w).state = .dirty) →
            (∀ u ∈ s.mc.waits, u.requester ≠ .sweep) → (s.bank 0).queue.length ≤ 16 →
            s.beginsWriting t))

/-! ## The chain -/

/-- A header arrives in RUNNING, phase HEADER. One in state READY with a count from 1 to 1024 is taken:
it joins the open batches, its TAKEN write issues, and the anchor's link is followed. Any other blocks
the Chain Unit and stalls the engine with BAD_BATCH, which raises STALL.
(What the next address holds outside phase HEADER is the model's choice, log entry 33.) -/
def Obligations.HeaderArrivalTakesOrRefuses : Prop :=
  ∀ (s : State) (tag : Nat) (a : BusAccess) (d : Block64),
    s.awaits tag a → a.kind = .headerRead → s.ec.engine = .running → s.cu.phase = .header →
    ∃ t, exec (.headerArrival tag d) s = .next t ∧ s.endsAccess tag t ∧ s.sameTablePath t
      ∧ s.addsOnly t (fun k => k == .takenWrite || k.isReleaseWrite) ∧ s.sameWindow t
      ∧ (field d 26 1 = 1 → 1 ≤ field d 8 2 → field d 8 2 ≤ 1024 →
          t.cu = { s.cu with
            phase := .taking, current := some a.addr, nextAddr := none,
            batches := t.cu.batches, anchor := t.cu.anchor, releases := t.cu.releases }
          ∧ t.ec = { s.ec with status := t.ec.status }
          ∧ t.cu.batches.getLast? = some ⟨a.addr, field d 8 2, d.getLsbD 80, 0, 0, false⟩
          ∧ t.cu.batches.length = s.cu.batches.length + 1
          ∧ t.hasIssued .takenWrite (a.addr + 26) 1 [2]
          ∧ (s.cu.anchor = none → t.cu.releases = s.cu.releases ∧ t.cu.anchor = none)
          ∧ (∀ n, s.cu.anchor = some n → n.retired = true → s.openBatch n.addr = none →
              t.hasIssued (.releaseWrite n.addr) (n.addr + 26) 1 [4])
          ∧ ∀ n, s.cu.anchor = some n → ∀ b ∈ s.cu.batches, b.addr = n.addr →
              { b with linkFollowed := true } ∈ t.cu.batches)
      ∧ ((field d 26 1 ≠ 1 ∨ field d 8 2 = 0 ∨ 1024 < field d 8 2) →
          t.cu = { s.cu with phase := .blocked, badBatch := true } ∧ s.raisesCause t 4
          ∧ t.ec = { s.ec with
              engine := .stalled, ending := .none, stallBadBatch := true, resumeState := .running,
              status := t.ec.status, intCause := t.ec.intCause })

/-- The TAKEN write completes in RUNNING, phase TAKING, with no slot given yet. While records of the current
batch and FREE slots both last, the lowest-numbered FREE slot becomes FETCHING with the next record
index, at the tail of the age list, and its read issues; every other slot stays as it was. When the
last record's read has issued the batch is the anchor, its link is read and the phase is LINK;
otherwise the phase is RECORDS. -/
def Obligations.TakenWriteCompletionBeginsTheRecords : Prop :=
  ∀ (s : State) (tag : Nat) (a : BusAccess) (c : Addr) (b : OpenBatch),
    s.awaits tag a → a.kind = .takenWrite → s.ec.engine = .running → s.cu.phase = .taking →
    s.cu.current = some c → s.openBatch c = some b → b.nextRecord < b.recordCount →
    s.cu.given = [] →
    let free := (List.finRange 64).filter fun k => (s.slot k).state == .free
    let m := min free.length (b.recordCount - b.nextRecord)
    ∃ t, exec (.takenWriteCompletion tag) s = .next t ∧ s.endsAccess tag t
      ∧ s.addsOnly t (fun x => x.isRecordRead || x == .linkRead)
      ∧ t.ec = { s.ec with status := t.ec.status }
      ∧ t.rt = { s.rt with slots := t.rt.slots, age := s.rt.age ++ free.take m }
      ∧ t.tl = s.tl ∧ t.bc = s.bc ∧ t.mc = s.mc ∧ s.sameWindow t
      ∧ (∀ (i : Nat) (k : SlotId), i < m → free[i]? = some k →
          t.slot k = { Slot.empty with
            state := .fetching, batch := c, index := b.nextRecord + i }
          ∧ t.hasIssued (.recordRead k) (recordAddr c (b.nextRecord + i)) 64 [])
      ∧ (∀ k : SlotId, k ∉ free.take m → t.slot k = s.slot k)
      ∧ t.cu = { s.cu with
          phase := t.cu.phase, current := t.cu.current, anchor := t.cu.anchor,
          batches := s.cu.batches.map fun e =>
            if e.addr = c then { e with nextRecord := e.nextRecord + m } else e }
      ∧ (b.nextRecord + m = b.recordCount → t.cu.phase = .link ∧ t.cu.current = none
          ∧ t.cu.anchor = some ⟨c, false, false⟩ ∧ t.hasIssued .linkRead c 8 [])
      ∧ (b.nextRecord + m ≠ b.recordCount → t.cu.phase = .records ∧ t.cu.current = some c
          ∧ t.cu.anchor = s.cu.anchor
          ∧ ∀ x ∈ t.bi.accesses, x ∉ s.bi.accesses → x.kind ≠ .linkRead)

/-- A record arrives for a slot that consideration has not reached: it is stored, and nothing else
changes. Under ABANDON a record or a loaded image that arrives for a discarded slot is dropped, and the
slot is FREE. (What the next address holds outside phase HEADER is the model's choice, log entry 33, and
what else of the chain is kept until the close log entry 34's.) -/
def Obligations.RecordArrivalWaitsForItsTurn : Prop :=
  (∀ (s : State) (tag : Nat) (a : BusAccess) (k : SlotId) (d : Block64),
    s.awaits tag a → a.kind = .recordRead k → (s.slot k).discarded = false →
    s.considerationPoint ≠ some k → s.statusLaw →
    exec (.recordArrival tag d) s =
      .next ((s.endAccess tag).setSlot k { s.slot k with record := some d }))
  ∧ ∀ (s : State) (tag : Nat) (a : BusAccess) (k : SlotId) (d : Block64) (e : Block128) (c : Instr),
    s.awaits tag a → s.ec.engine = .stopping → s.ec.ending = .abandon →
    (s.slot k).discarded = true →
    ((a.kind = .recordRead k ∧ c = .recordArrival tag d)
      ∨ (a.kind = .bufferRead k ∧ c = .loadCompletion tag e)) →
    ∃ t, exec c s = .next t ∧ ((s.endAccess tag).freed k).drainsAbandoned t

/-- A record arrives at the consideration point, behind which no record has arrived. With the fence hold
set the slot becomes HELD, undecoded. With it clear, in RUNNING: a record that fails decode is answered
BAD_REQUEST at once, and a keyed request whose key an older unfinished request holds becomes
WAITING_KEY. A fencing request that is considered with the hold clear becomes its owner, HELD or, for a
RAW_WRITE, LOADING with its buffer read issued (or waiting through a stall), and the owner is looked at.
Decode, field by field; and when a key is held. -/
def Obligations.RecordArrivalIsConsidered : Prop :=
  (∀ (s : State) (tag : Nat) (a : BusAccess) (k : SlotId) (d : Block64),
    s.awaits tag a → a.kind = .recordRead k → (s.slot k).discarded = false →
    s.considerationPoint = some k → (s.slot k).state = .fetching → (s.slot k).request = none →
    s.ec.engine = .running →
    (∀ j : SlotId, j ≠ k → (s.slot j).record = none ∨ (s.slot j).considered = true) →
    (s.rt.hold.isSome = true ∨ decodeRecord s.tl.size d = none
      ∨ ∃ r, decodeRecord s.tl.size d = some r ∧ r.kind.keyed = true
        ∧ s.keyHeld k r.key = true) →
    ∃ t, exec (.recordArrival tag d) s = .next t ∧ s.endsAccess tag t ∧ s.sameWindow t
      ∧ t.ec = { s.ec with status := t.ec.status } ∧ t.cu = s.cu ∧ t.tl = s.tl ∧ t.bc = s.bc
      ∧ t.mc = s.mc ∧ t.rt.hold = s.rt.hold ∧ t.rt.age = s.rt.age ∧ s.onlySlot t k
      ∧ (s.rt.hold.isSome = true →
          t.slot k = { s.slot k with record := some d, considered := true, state := .held })
      ∧ (s.rt.hold = none → decodeRecord s.tl.size d = none →
          (t.slot k).state = .reporting ∧ (t.slot k).result = some (.bare .badRequest)
          ∧ t.hasIssued (.resultWrite k) (recordAddr (s.slot k).batch (s.slot k).index + 40) 16
            (resultBytes (.bare .badRequest)))
      ∧ (∀ r, s.rt.hold = none → decodeRecord s.tl.size d = some r → r.kind.keyed = true →
          s.keyHeld k r.key = true →
          t.slot k = { s.slot k with
            record := some d, considered := true, request := some r, state := .waitingKey }))
  ∧ (∀ (s : State) (k : SlotId) (d : Block64) (r : Request),
    s.considerationPoint = some k → (s.slot k).record = some d → s.rt.hold = none →
    decodeRecord s.tl.size d = some r → r.kind.keyed = false →
    ∃ t, runTask .consider s = (t, [.owner, .consider]) ∧ s.onlySlot t k
      ∧ t = { s with bi := t.bi, rt := { s.rt with hold := some k, slots := t.rt.slots } }
      ∧ (r.kind ≠ .rawWrite → t.bi = s.bi ∧ t.slot k =
          { s.slot k with considered := true, request := some r, state := .held })
      ∧ (r.kind = .rawWrite → s.mayIssue = false → t.bi = s.bi ∧ t.slot k =
          { s.slot k with
            considered := true, request := some r, state := .loading, transfer := .waiting })
      ∧ (r.kind = .rawWrite → s.mayIssue = true → s.keepsAccesses t
          ∧ t.hasIssued (.bufferRead k) r.operand 128 [] ∧ t.slot k =
          { s.slot k with
            considered := true, request := some r, state := .loading, transfer := .outstanding }))
  ∧ (∀ (size : Nat) (d : Block64),
    ((decodeRecord size d).isSome = true ↔
      1 ≤ field d 0 1 ∧ field d 0 1 ≤ 9 ∧ field d 1 1 < 16
        ∧ (field d 0 1 = 2 → field d 1 1 % 4 ≠ 3)
        ∧ (field d 0 1 = 7 ∨ field d 0 1 = 8 → field d 8 8 < 2 ^ size ∧ field d 24 8 % 64 = 0)
        ∧ (field d 0 1 = 9 → field d 24 8 < 2 ^ size))
    ∧ ∀ r, decodeRecord size d = some r →
      r.key = d.extractLsb' 64 128 ∧ r.operand.toNat = field d 24 8
        ∧ (r.kind = .lookup ↔ field d 0 1 = 1)
        ∧ (r.kind = .insert .add ↔ field d 0 1 = 2 ∧ field d 1 1 % 4 = 0)
        ∧ (r.kind = .insert .replace ↔ field d 0 1 = 2 ∧ field d 1 1 % 4 = 1)
        ∧ (r.kind = .insert .upsert ↔ field d 0 1 = 2 ∧ field d 1 1 % 4 = 2)
        ∧ (r.kind = .delete ↔ field d 0 1 = 3)
        ∧ (∀ create clamp, r.kind = .accumulate create clamp ↔ field d 0 1 = 4
            ∧ create = (field d 1 1).testBit 2 ∧ clamp = (field d 1 1).testBit 3)
        ∧ (r.kind = .fence ↔ field d 0 1 = 5) ∧ (r.kind = .flush ↔ field d 0 1 = 6)
        ∧ (r.kind = .rawRead ↔ field d 0 1 = 7 ∧ r.bucket = field d 8 8)
        ∧ (r.kind = .rawWrite ↔ field d 0 1 = 8 ∧ r.bucket = field d 8 8)
        ∧ (r.kind = .repair ↔ field d 0 1 = 9 ∧ r.bucket = field d 24 8))
  ∧ ∀ (s : State) (k : SlotId) (key : Key), s.keyHeld k key = true ↔
    ∃ j ∈ s.olderThan k, ((s.slot j).state = .waitingKey ∨ (s.slot j).state = .visiting
        ∨ (s.slot j).state = .awaitingWrite)
      ∧ ∃ r, (s.slot j).request = some r ∧ r.kind.keyed = true ∧ r.key = key

/-- A keyed record whose key no older request holds arrives at the consideration point, the fence hold
clear, behind which no record has arrived: it is dispatched to its primary bucket. On a hit of an
unclaimed line it joins the queue; on a miss that is neither listed nor behind another it gets the
line the set chooses, FILLING with it as first waiter, and a fill is counted and handed over.
Every other arrival of a keyed request or a RAW_READ: on a claimed line it is a rescue, which withdraws
the claim, lets the claimant choose again and the wait list retry; on a listed bucket it is refused;
behind another request, or with nothing usable, it joins the tail of the wait list. What a set chooses;
what a request given a line by allocation or by castout does to it; how a wait list is served from its
head; a former claimant that finds nothing enters the list at its head. -/
def Obligations.KeyedRecordVisitsItsPrimary : Prop :=
  (∀ (s : State) (tag : Nat) (a : BusAccess) (k : SlotId) (d : Block64) (r : Request) (w : Way),
    s.awaits tag a → a.kind = .recordRead k → (s.slot k).discarded = false →
    s.considerationPoint = some k → (s.slot k).context = none → s.rt.hold = none →
    decodeRecord s.tl.size d = some r → r.kind.keyed = true → s.keyHeld k r.key = false →
    (∀ j : SlotId, j ≠ k → (s.slot j).record = none ∨ (s.slot j).considered = true) →
    let b := primaryBucket s.tl.size s.tl.seed r.key
    let visiting : Slot := { s.slot k with
      record := some d, considered := true, request := some r, state := .visiting,
      context := some ⟨r, some b, some (alternateBucket s.tl.size s.tl.seed r.key), .one, false,
        none, none⟩ }
    ((s.cacheSet (setOf b)).find b = some w → (s.line (setOf b) w).claim = none →
      ∃ t, exec (.recordArrival tag d) s = .next t ∧ t.slot k = visiting ∧ s.onlySlot t k
        ∧ t.line (setOf b) w = { s.line (setOf b) w with
            waiters := (s.line (setOf b) w).waiters ++ [k] }
        ∧ s.onlyLine t (setOf b) w ∧ t.mc = s.mc ∧ t.ec = { s.ec with status := t.ec.status }
        ∧ t.cu = s.cu ∧ t.tl = s.tl ∧ s.endsAccess tag t ∧ s.sameWindow t)
    ∧ ((s.cacheSet (setOf b)).find b = none → s.listed b = false →
      (s.cacheSet (setOf b)).waiting = [] → s.claimedFor (setOf b) b = false →
      (∀ v : Way, (s.line (setOf b) v).claim ≠ some k) →
      (s.cacheSet (setOf b)).choose = .allocate w →
      ∃ t, exec (.recordArrival tag d) s = .next t ∧ t.slot k = visiting ∧ s.onlySlot t k
        ∧ t.line (setOf b) w = Line.filling b [k] ∧ s.onlyLine t (setOf b) w
        ∧ (t.cacheSet (setOf b)).order = (s.cacheSet (setOf b)).order.filter (· != w) ++ [w]
        ∧ ((∃ x ∈ (t.bank (bankOf b)).queue, x.body = ⟨.bucket b, .read, .line (setOf b) w⟩)
          ∨ (⟨.bucket b, .read, .line (setOf b) w⟩ : Transaction) ∈ t.mc.waits)
        ∧ t.ec = { s.ec with
            status := t.ec.status
            counters := { s.ec.counters with fills := s.ec.counters.fills + 1 } }
        ∧ t.cu = s.cu ∧ t.tl = s.tl ∧ s.endsAccess tag t ∧ s.sameWindow t))
  ∧ (∀ (s : State) (k : SlotId) (c : Context),
    (s.slot k).context = some c → c.request.kind.replacesImage = false →
    let b := c.bucket
    let i := setOf b
    let behind := (s.putSet i { s.cacheSet i with waiting := (s.cacheSet i).waiting ++ [k] },
      ([] : List Task))
    (∀ w, (s.cacheSet i).find b = some w →
      runTask (.arrive k) s = (s.setLine i w { s.line i w with
          waiters := (s.line i w).waiters ++ [k], claim := none },
        match (s.line i w).claim with
        | some j => [.rechoose j, .retry i]
        | none => []))
    ∧ ((s.cacheSet i).find b = none → s.listed b = true →
      runTask (.arrive k) s = (s, [.refuse k]))
    ∧ ((s.cacheSet i).find b = none → s.listed b = false →
      (s.claimedFor i b = true ∨ (s.cacheSet i).waiting ≠ []) →
      runTask (.arrive k) s = behind)
    ∧ ((s.cacheSet i).find b = none → s.listed b = false → s.claimedFor i b = false →
      (s.cacheSet i).waiting = [] →
      runTask (.arrive k) s = (s.takeLine k).getD behind))
  ∧ (∀ (s : State) (k : SlotId), s.needsNoFill k = false →
    let b := s.visitBucket k
    let i := setOf b
    ((s.cacheSet i).choose = .nothing → s.takeLine k = none)
    ∧ (∀ w, (s.cacheSet i).choose = .allocate w → ∃ t, s.takeLine k = some (t, [])
      ∧ t.line i w = Line.filling b
          (k :: (s.cacheSet i).waiting.filter fun j => s.visitBucket j == b)
      ∧ (t.cacheSet i).waiting = (s.cacheSet i).waiting.filter (fun j => s.visitBucket j != b)
      ∧ (t.cacheSet i).order = (s.cacheSet i).order.filter (· != w) ++ [w] ∧ s.onlyLine t i w
      ∧ t.handsOver ⟨.bucket b, .read, .line i w⟩ ∧ t.rt = s.rt ∧ t.bc.poison = s.bc.poison
      ∧ t.ec.counters = { s.ec.counters with fills := s.ec.counters.fills + 1 })
    ∧ (∀ w, (s.cacheSet i).choose = .castout w → ∃ t, s.takeLine k = some (t, [])
      ∧ t.line i w = { s.line i w with state := .writing, claim := some k } ∧ s.onlyLine t i w
      ∧ (t.cacheSet i).waiting = (s.cacheSet i).waiting
      ∧ t.handsOver ⟨.bucket ((s.line i w).tag.getD 0), .write (s.line i w).image, .line i w⟩
      ∧ t.rt = s.rt ∧ t.bc.poison = s.bc.poison
      ∧ t.ec.counters = { s.ec.counters with castouts := s.ec.counters.castouts + 1 }))
  ∧ (∀ (s : State) (k : SlotId),
    let i := setOf (s.visitBucket k)
    runTask (.rechoose k) s = (s.takeLine k).getD
      (s.putSet i { s.cacheSet i with waiting := k :: (s.cacheSet i).waiting }, []))
  ∧ (∀ (s : State) (i : SetId),
    ((s.cacheSet i).waiting = [] → runTask (.retry i) s = (s, []))
    ∧ ∀ k rest, (s.cacheSet i).waiting = k :: rest →
      let b := s.visitBucket k
      let left := s.putSet i { s.cacheSet i with waiting := rest }
      (s.claimedFor i b = true → runTask (.retry i) s = (s, []))
      ∧ (s.claimedFor i b = false → s.needsNoFill k = false → s.listed b = true →
        runTask (.retry i) s = (left, [.refuse k, .retry i]))
      ∧ (s.claimedFor i b = false → (s.needsNoFill k = true ∨ s.listed b = false) →
        runTask (.retry i) s = match left.takeLine k with
          | some p => (p.1, p.2 ++ [.retry i])
          | none => (s, [])))
  ∧ (∀ (c : CacheSet) (b : Bucket),
    (∀ w, c.find b = some w → c.lines[w].tag = some b)
    ∧ (c.find b = none ↔ ∀ w : Way, c.lines[w].tag ≠ some b))
  ∧ ∀ c : CacheSet,
    let free := fun w : Way => c.lines[w].state = .free
    let usable := fun (x : LineState) (w : Way) => c.lines[w].state = x ∧ c.lines[w].waiters = []
      ∧ c.lines[w].current = [] ∧ c.lines[w].next = [] ∧ c.lines[w].claim = none
    (∀ w, free w → (∀ v < w, ¬free v) → c.choose = .allocate w)
    ∧ ((∀ w, ¬free w) →
      (∀ pre w post, c.order = pre ++ w :: post → usable .clean w →
        (∀ v ∈ pre, ¬usable .clean v) → c.choose = .allocate w)
      ∧ ((∀ v ∈ c.order, ¬usable .clean v) →
        ((∃ w : Way, c.lines[w].claim ≠ none) → c.choose = .nothing)
        ∧ ((∀ v ∈ c.order, ¬usable .dirty v) → c.choose = .nothing)
        ∧ ∀ pre w post, (∀ v : Way, c.lines[v].claim = none) → c.order = pre ++ w :: post →
          usable .dirty w → (∀ v ∈ pre, ¬usable .dirty v) → c.choose = .castout w))

/-- The anchor's link arrives in RUNNING, phase LINK. A nonzero link leads to the header read there, or
waits while 8 batches are open, or is refused when misaligned (not before a place is free: the model's
choice, log entry 15), which raises STALL; a zero is read again under a nudge, and parks the Chain Unit
otherwise, which raises PARK if the table profile enables it. Under STOP, a stall that returns to it
included, a link or a header that arrives, or faults, is not acted upon: the phase is ENDED, and with no
batch open and no retirement outstanding the anchor not yet released is released. Under ABANDON it
changes nothing of its own. (What the next address holds outside phase HEADER is the model's choice, log
entry 33, and what else of the chain ABANDON keeps until the close log entry 34's.) -/
def Obligations.LinkArrivalIsFollowed : Prop :=
  (∀ (s : State) (tag : Nat) (a : BusAccess) (link : Addr) (n : Anchor),
    s.awaits tag a → a.kind = .linkRead → s.ec.engine = .running → s.cu.phase = .link →
    s.cu.anchor = some n → s.readsHeader = false →
    ∃ t, exec (.linkArrival tag link) s = .next t ∧ s.endsAccess tag t ∧ s.sameTablePath t
      ∧ s.sameWindow t ∧ s.addsOnly t (fun k => k == .headerRead || k == .linkRead)
      ∧ (link ≠ 0 → (link.toNat % 64 = 0 ∨ 8 ≤ s.cu.batches.length) →
          t.cu = { s.cu with phase := .header, nextAddr := some link }
          ∧ t.ec = { s.ec with status := t.ec.status }
          ∧ (s.cu.batches.length < 8 → t.hasIssued .headerRead link 64 [])
          ∧ (8 ≤ s.cu.batches.length → s.addsOnly t (fun _ => false)))
      ∧ (link ≠ 0 → link.toNat % 64 ≠ 0 → s.cu.batches.length < 8 →
          t.cu = { s.cu with phase := .blocked, nextAddr := some link, badBatch := true }
          ∧ s.raisesCause t 4
          ∧ t.ec = { s.ec with
              engine := .stalled, ending := .none, stallBadBatch := true, resumeState := .running,
              status := t.ec.status, intCause := t.ec.intCause })
      ∧ (link = 0 → s.cu.nudgePending = true →
          t.cu = { s.cu with phase := .link, nudgePending := false }
          ∧ t.hasIssued .linkRead n.addr 8 [] ∧ t.ec = { s.ec with status := t.ec.status })
      ∧ (link = 0 → s.cu.nudgePending = false →
          t.cu = { s.cu with phase := .parked, parked := true }
          ∧ t.ec = { s.ec with status := t.ec.status, intCause := t.ec.intCause }
          ∧ s.raisesCause t (if s.ec.parkEnable then 2 else 0)))
  ∧ ∀ (s : State) (tag : Nat) (a : BusAccess) (link : Addr) (d : Block64) (c : Instr),
    s.awaits tag a →
    ((a.kind = .linkRead ∧ (c = .linkArrival tag link ∨ c = .chainAccessFault tag))
      ∨ (a.kind = .headerRead ∧ (c = .headerArrival tag d ∨ c = .chainAccessFault tag))) →
    ((s.ec.engine = .stopping ∧ s.ec.ending = .stop
        ∨ s.ec.engine = .stalled ∧ s.ec.resumeState = .stopping) → s.ec.chainClosed = false →
      ∃ t, exec c s = .next t ∧ s.endsAccess tag t ∧ s.sameTablePath t ∧ s.sameWindow t
        ∧ s.addsOnly t AccessKind.isReleaseWrite
        ∧ ((s.cu.batches ≠ [] ∨ s.cu.retirementOutstanding = true) →
          t.cu = { s.cu with phase := .ended }
          ∧ t.ec = { s.ec with tableEmpty := s.allFree, status := t.ec.status })
        ∧ (∀ x m, s.cu.batches = [] → s.cu.retirementOutstanding = false →
          s.cu.anchor = some ⟨x, m, false⟩ → s.ec.engine = .stopping →
          t.hasIssued (.releaseWrite x) (x + 26) 1 [4]
          ∧ t.cu = { s.cu with
              phase := .ended, anchor := some ⟨x, m, true⟩, releases := s.cu.releases ++ [x] }
          ∧ t.ec = { s.ec with tableEmpty := s.allFree, status := t.ec.status }))
    ∧ (s.ec.engine = .stopping → s.ec.ending = .abandon →
      ∃ t, exec c s = .next t ∧ (s.endAccess tag).drainsAbandoned t)

/-- A result write completes in RUNNING: the slot becomes FREE (or is given to the next record), the done
count of its batch and the request counters rise, and the oldest batch begins to retire if all of its
records are answered. -/
def Obligations.ResultWriteCompletionCountsTheAnswer : Prop :=
  ∀ (s : State) (tag : Nat) (a : BusAccess) (k : SlotId),
    s.awaits tag a → a.kind = .resultWrite k → s.ec.engine = .running →
    ∃ t, exec (.resultWriteCompletion tag) s = .next t ∧ s.endsAccess tag t ∧ s.sameWindow t
      ∧ t.ec = { s.ec with
          status := t.ec.status
          counters := { s.ec.counters with
            requestsCompleted := s.ec.counters.requestsCompleted + 1
            lookupsFound := s.ec.counters.lookupsFound +
              if (s.slot k).request.map Request.kind = some .lookup
                ∧ (s.slot k).result.map Result.code = some .found then 1 else 0 } }
      ∧ t.cu.batches.length = s.cu.batches.length
      ∧ (∀ b ∈ s.cu.batches, ∃ b' ∈ t.cu.batches, b'.addr = b.addr
          ∧ b'.recordCount = b.recordCount ∧ b'.notify = b.notify
          ∧ b'.linkFollowed = b.linkFollowed
          ∧ b'.doneCount = if b.addr = (s.slot k).batch then b.doneCount + 1 else b.doneCount)
      ∧ (∀ j : SlotId, j ≠ k → (s.slot j).state ≠ .free → t.slot j = s.slot j)
      ∧ (s.cu.phase ≠ .records → s.cu.given = [] → t.slot k = Slot.empty ∧ s.onlySlot t k
          ∧ t.rt.age = s.rt.age.filter (· != k))
      ∧ (∀ b rest, s.cu.batches = b :: rest → s.cu.phase ≠ .records → s.cu.given = [] →
          s.cu.retirementOutstanding = false → b.addr = (s.slot k).batch →
          b.doneCount + 1 = b.recordCount → t.cu.retirementOutstanding = true
          ∧ t.hasIssued .retirementWrite (b.addr + 16) 11
              (retirementBytes (s.cu.retireSeq + 1) b.recordCount))
      ∧ t.cu.retireSeq = s.cu.retireSeq ∧ t.rt.hold = s.rt.hold
      ∧ t.tl = s.tl ∧ t.bc = s.bc ∧ t.mc = s.mc

/-- A retirement write completes in RUNNING: the oldest batch leaves the open batches, the retire
sequence rises by one, the batch is the last retired, and RETIRE is raised if its NOTIFY flag is set; it
is released if its link has been followed, and otherwise the anchor is marked retired. The next batch
retires if all of its records are answered, and a header read that waited for a free place among the
open batches issues. Under ABANDON it retires in the same way, but no release write, no header read and
no further retirement follows; with another access of the Chain Unit outstanding the chain stays open,
and otherwise it is closed and forgotten, and with every slot FREE the engine is READY, which raises
STATE too. (What the next address holds outside phase HEADER is the model's choice, log entry 33, and that
the current batch and the batches with release writes are forgotten at the close, not before, log entry
34's.) -/
def Obligations.RetirementCompletionRetiresTheOldest : Prop :=
  (∀ (s : State) (tag : Nat) (a : BusAccess) (b : OpenBatch) (rest : List OpenBatch),
    s.awaits tag a → a.kind = .retirementWrite → s.ec.engine = .running →
    s.cu.batches = b :: rest → (∀ x, s.cu.nextAddr = some x → x.toNat % 64 = 0) →
    ∃ t, exec (.retirementWriteCompletion tag) s = .next t ∧ s.endsAccess tag t
      ∧ s.sameTablePath t ∧ s.sameWindow t ∧ s.raisesCause t (if b.notify then 1 else 0)
      ∧ t.ec = { s.ec with
          lastRetired := b.addr, status := t.ec.status, intCause := t.ec.intCause }
      ∧ t.cu = { s.cu with
          retireSeq := s.cu.retireSeq + 1, batches := rest, anchor := t.cu.anchor,
          releases := t.cu.releases, retirementOutstanding := t.cu.retirementOutstanding }
      ∧ (b.linkFollowed = true → t.hasIssued (.releaseWrite b.addr) (b.addr + 26) 1 [4])
      ∧ (b.linkFollowed = false → t.cu.releases = s.cu.releases
          ∧ ∀ n, s.cu.anchor = some n → n.addr = b.addr →
              t.cu.anchor = some { n with retired := true })
      ∧ (∀ x, s.cu.phase = .header → rest.length < 8 → s.cu.nextAddr = some x →
          s.readsHeader = false → t.hasIssued .headerRead x 64 [])
      ∧ (∀ c rest', rest = c :: rest' → c.doneCount = c.recordCount →
          t.hasIssued .retirementWrite (c.addr + 16) 11
            (retirementBytes (s.cu.retireSeq + 2) c.doneCount)))
  ∧ ∀ (s : State) (tag : Nat) (a : BusAccess) (b : OpenBatch) (rest : List OpenBatch),
    s.awaits tag a → a.kind = .retirementWrite → s.ec.engine = .stopping →
    s.ec.ending = .abandon → s.ec.chainClosed = false → s.cu.phase = .ended →
    s.cu.batches = b :: rest →
    let retires : BitVec 5 := if b.notify then 1 else 0
    ∃ t, exec (.retirementWriteCompletion tag) s = .next t ∧ s.endsAccess tag t
      ∧ s.sameTablePath t ∧ s.sameWindow t ∧ s.addsOnly t (fun _ => false)
      ∧ ((s.endAccess tag).outstanding AccessKind.ofChain = true →
          s.raisesCause t retires
          ∧ t.ec = { s.ec with
              lastRetired := b.addr, tableEmpty := s.allFree, status := t.ec.status,
              intCause := t.ec.intCause }
          ∧ t.cu = { s.cu with
              retireSeq := s.cu.retireSeq + 1, batches := rest, retirementOutstanding := false
              anchor := s.cu.anchor.map fun n =>
                if b.linkFollowed = false ∧ n.addr = b.addr then { n with retired := true }
                else n })
      ∧ ((s.endAccess tag).outstanding AccessKind.ofChain = false →
          t.cu = { s.cu with
              retireSeq := s.cu.retireSeq + 1, batches := [], retirementOutstanding := false,
              phase := .idle, anchor := none, current := none, nextAddr := none, releases := [] }
          ∧ (s.allFree = false → s.raisesCause t retires ∧ t.ec = { s.ec with
              lastRetired := b.addr, tableEmpty := false, chainClosed := true,
              status := t.ec.status, intCause := t.ec.intCause })
          ∧ (s.allFree = true → s.raisesCause t (retires ||| 8) ∧ t.ec = { s.ec with
              lastRetired := b.addr, engine := .ready, ending := .none, tableEmpty := false,
              chainClosed := false, status := t.ec.status, intCause := t.ec.intCause }))

/-- A release write completes. In RUNNING the Chain Unit forgets the batch, and nothing else changes. In
a STOP whose chain has ended, with nothing else outstanding and every slot FREE, the chain is closed and
the engine is READY, which raises STATE. (What the next address holds outside phase HEADER is the
model's choice, log entry 33.) -/
def Obligations.ReleaseCompletionForgetsTheBatch : Prop :=
  ∀ (s : State) (tag : Nat) (a : BusAccess) (b : Addr),
    s.awaits tag a → a.kind = .releaseWrite b →
    (s.ec.engine = .running → s.statusLaw → exec (.releaseWriteCompletion tag) s =
      .next { s.endAccess tag with cu := { s.cu with releases := s.cu.releases.erase b } })
    ∧ (∀ x m, s.ec.engine = .stopping → s.ec.ending = .stop → s.cu.phase = .ended →
      s.cu.batches = [] → s.cu.retirementOutstanding = false → s.cu.anchor = some ⟨x, m, true⟩ →
      s.cu.faulted = [] → s.cu.releasesWaiting = [] →
      (s.endAccess tag).outstanding AccessKind.ofChain = false →
      (∀ k : SlotId, (s.slot k).state = .free) →
      ∃ t, exec (.releaseWriteCompletion tag) s = .next t
        ∧ t.ec = { s.ec with
            engine := .ready, ending := .none, tableEmpty := false, chainClosed := false,
            status := t.ec.status, intCause := t.ec.intCause }
        ∧ t.cu = { s.cu with
            releases := s.cu.releases.erase b, phase := .idle, anchor := none,
            nudgePending := false, nextAddr := none }
        ∧ s.raisesCause t 8 ∧ s.sameTablePath t ∧ s.endsAccess tag t ∧ s.addsOnly t (fun _ => false)
        ∧ s.sameWindow t)

/-- A bus fault on an access of the Chain Unit or on a buffer transfer in RUNNING: remembered by the
block that issued it, and the engine is STALLED with HOST_FAULT, to resume as RUNNING, which raises
STALL; the slots keep their states. In a stall that returns to RUNNING a chain fault is added and the stall
goes on. Under ABANDON a fault is ignored, as are the completions of TAKEN, result and release writes:
the access has ended, the slot it was for is FREE, and nothing is remembered, counted or issued.
(What the next address holds outside phase HEADER is the model's choice, log entry 33; when
ABANDON lets go of the current batch and of the marks of retirement and release writes, where R110 does
not say it, is log entry 34's.) -/
def Obligations.BusFaultsStallTheEngine : Prop :=
  (∀ (s : State) (tag : Nat) (a : BusAccess), s.awaits tag a →
    (a.kind.ofChain = true → s.ec.engine = .running → ∃ t, exec (.chainAccessFault tag) s = .next t
      ∧ t.ec.engine = .stalled ∧ t.ec.resumeState = .running ∧ t.ec.stallHostFault = true
      ∧ s.raisesCause t 4
      ∧ t.ec.stallBadBatch = s.ec.stallBadBatch ∧ t.ec.counters = s.ec.counters
      ∧ t.ec.identity = s.ec.identity ∧ a ∈ t.cu.faulted
      ∧ t.cu = { s.cu with faulted := t.cu.faulted } ∧ s.sameTablePath t
      ∧ s.endsAccess tag t ∧ s.sameWindow t)
    ∧ (a.kind.ofChain = true → s.ec.engine = .stalled → s.ec.resumeState = .running →
      ∃ t, exec (.chainAccessFault tag) s = .next t
      ∧ t.ec.engine = .stalled ∧ t.ec.resumeState = s.ec.resumeState
      ∧ t.ec.stallHostFault = true ∧ t.ec.counters = s.ec.counters
      ∧ t.ec.identity = s.ec.identity ∧ a ∈ t.cu.faulted
      ∧ t.cu = { s.cu with faulted := t.cu.faulted } ∧ s.sameTablePath t
      ∧ s.endsAccess tag t ∧ s.sameWindow t)
    ∧ ∀ k : SlotId, (a.kind = .bufferRead k ∨ a.kind = .bufferWrite k) → s.ec.engine = .running →
      ∃ t, exec (.bufferAccessFault tag) s = .next t
      ∧ t.ec.engine = .stalled ∧ t.ec.resumeState = .running ∧ t.ec.stallHostFault = true
      ∧ s.raisesCause t 4 ∧ t.ec.counters = s.ec.counters ∧ t.ec.identity = s.ec.identity
      ∧ a ∈ t.rt.faulted ∧ t.slot k = { s.slot k with transfer := .faulted } ∧ s.onlySlot t k
      ∧ t.rt.hold = s.rt.hold ∧ t.rt.age = s.rt.age
      ∧ t.cu = s.cu ∧ t.tl = s.tl ∧ t.bc = s.bc ∧ t.mc = s.mc
      ∧ s.endsAccess tag t ∧ s.sameWindow t)
  ∧ ∀ (s : State) (tag : Nat) (a : BusAccess) (c : Instr), s.awaits tag a →
    s.ec.engine = .stopping → s.ec.ending = .abandon → s.cu.phase ≠ .taking →
    ((a.kind.ofChain = true ∧ c = .chainAccessFault tag)
      ∨ ((∃ k, a.kind = .bufferRead k ∨ a.kind = .bufferWrite k) ∧ c = .bufferAccessFault tag)
      ∨ (a.kind = .takenWrite ∧ c = .takenWriteCompletion tag)
      ∨ ((∃ k, a.kind = .resultWrite k) ∧ c = .resultWriteCompletion tag)
      ∨ ((∃ b, a.kind = .releaseWrite b) ∧ c = .releaseWriteCompletion tag)) →
    let ended := s.endAccess tag
    let effect : State := match a.kind with
      | .recordRead k | .resultWrite k | .bufferRead k | .bufferWrite k => ended.freed k
      | .retirementWrite => { ended with cu := { s.cu with retirementOutstanding := false } }
      | .releaseWrite b => { ended with cu := { s.cu with releases := s.cu.releases.erase b } }
      | _ => ended
    ∃ t, exec c s = .next t ∧ effect.drainsAbandoned t

/-! ## Buffer transfers -/

/-- The image of a RAW_WRITE that owns the fence hold arrives while an older request is unfinished: the
slot is HELD with the 128 bytes as its context's image. The owner of the hold is dispatched once it is
HELD and every older request is finished: a FENCE ends DONE at once; the others become VISITING and
their visit arrives. A RAW_WRITE joins the line that holds its bucket; a REPAIR of an unlisted bucket
ends NOT_LISTED; otherwise either obtains a line, whose allocation needs no fill: the bucket leaves the
poison list, and the step, in the same event, writes the image loaded, in normal form, or the repaired
bucket. RAW_WRITE takes the treatment of the policy, REPAIR the through treatment. -/
def Obligations.LoadCompletionHoldsTheImage : Prop :=
  (∀ (s : State) (tag : Nat) (a : BusAccess) (k j : SlotId) (d : Block128) (r : Request),
    s.awaits tag a → a.kind = .bufferRead k → (s.slot k).discarded = false →
    s.rt.hold = some k → (s.slot k).request = some r → j ≠ k → j ∈ s.olderThan k →
    (s.slot j).state.isFinished = false → s.statusLaw →
    ∃ t, exec (.loadCompletion tag d) s = .next t
      ∧ (t.slot k).state = .held ∧ (t.slot k).request = some r
      ∧ (∃ c, (t.slot k).context = some c ∧ c.image = some (Image.ofBits d) ∧ c.request = r
          ∧ c.visit = .one ∧ c.reserved = false ∧ c.pendingResult = none)
      ∧ s.onlySlot t k ∧ t.rt.hold = some k ∧ t.cu = s.cu ∧ t.tl = s.tl ∧ t.bc = s.bc
      ∧ t.mc = s.mc ∧ t.ec = s.ec ∧ s.endsAccess tag t ∧ s.sameWindow t)
  ∧ (∀ (s : State) (k : SlotId), s.rt.hold = some k →
    let finished := fun j : SlotId => (s.slot j).state = .finished ∨ (s.slot j).state = .reporting
    ((s.slot k).state = .held → (∀ j ∈ s.olderThan k, finished j) →
      runTask .owner s = (s, [.dispatch k]))
    ∧ (((s.slot k).state ≠ .held ∨ ∃ j ∈ s.olderThan k, ¬finished j) →
      runTask .owner s = (s, [])))
  ∧ (∀ (s : State) (k : SlotId) (r : Request), (s.slot k).request = some r →
    (r.kind = .fence → runTask (.dispatch k) s = (s, [.finish k (.bare .done)]))
    ∧ (r.kind ≠ .fence → r.kind ≠ .flush → runTask (.dispatch k) s =
      (s.setSlot k { s.slot k with
        state := .visiting
        context := some ((s.slot k).context.getD ⟨r,
          if r.kind.keyed then some (primaryBucket s.tl.size s.tl.seed r.key) else none,
          if r.kind.keyed then some (alternateBucket s.tl.size s.tl.seed r.key) else none,
          .one, false, none, none⟩) }, [.arrive k])))
  ∧ (∀ (s : State) (k : SlotId) (c : Context), (s.slot k).context = some c →
    let b := c.bucket
    let i := setOf b
    (c.request.kind = .repair → s.listed b = false →
      runTask (.arrive k) s = (s, [.finish k (.bare .notListed)]))
    ∧ (c.request.kind = .rawWrite → ∀ w, (s.cacheSet i).find b = some w →
      (s.line i w).claim = none → runTask (.arrive k) s =
        (s.setLine i w { s.line i w with waiters := (s.line i w).waiters ++ [k] }, []))
    ∧ ((c.request.kind = .repair ∧ s.listed b = true
        ∨ c.request.kind = .rawWrite ∧ (s.cacheSet i).find b = none) →
      s.claimedFor i b = false → (s.cacheSet i).waiting = [] →
      runTask (.arrive k) s = (s.takeLine k).getD
        (s.putSet i { s.cacheSet i with waiting := [k] }, []))
    ∧ ∀ w im, (c.request.kind = .rawWrite ∧ c.image = some im) ∨ c.request.kind = .repair →
      (s.cacheSet i).choose = .allocate w →
      ∃ t tasks, s.takeLine k = some (t, tasks) ∧ s.takesWhole t tasks i w k c im)
  ∧ ∀ im : Image,
    im.normalForm.valid = true ∧ im.normalForm.spill = im.spill ∧ im.normalForm.reserved = 0
      ∧ im.normalForm.occupancy = im.occupancy &&& 0x1F
      ∧ (∀ k : Fin 5, im.normalForm.slots[k] = if im.occupied k then im.slots[k] else ⟨0, 0⟩)
      ∧ Image.repaired.valid = true ∧ Image.repaired.spill = 255 ∧ Image.repaired.occupancy = 0
      ∧ Image.repaired.reserved = 0 ∧ ∀ k : Fin 5, Image.repaired.slots[k] = ⟨0, 0⟩

/-- The image of a RAW_READ that owns the fence hold has been stored, in RUNNING, with no HELD slot and no
record waiting for consideration: the slot ends DONE, its result write issues, and the hold is clear.
Before that its step copies the line's image into its context and begins the store: the 128 bytes are
written to its buffer, at once or after a stall. In RUNNING, the owner of the hold that finishes clears
it with the considered mark of every HELD slot, and consideration resumes; another keyed request that
finishes dispatches the oldest slot in WAITING_KEY on its key. The dispatch of a FLUSH makes every DIRTY
line WRITING with its write handed over and counted nowhere; the sweep ends, with the FLUSH DONE, when
no line is DIRTY, WRITING or REWRITE. -/
def Obligations.StoreCompletionEndsDone : Prop :=
  (∀ (s : State) (tag : Nat) (a : BusAccess) (k : SlotId),
    s.awaits tag a → a.kind = .bufferWrite k → s.ec.engine = .running → s.rt.hold = some k →
    (s.slot k).state = .storing → (s.slot k).considered = true →
    (∀ j : SlotId, j ≠ k → (s.slot j).state ≠ .held
      ∧ ((s.slot j).record = none ∨ (s.slot j).considered = true)) →
    ∃ t, exec (.storeCompletion tag) s = .next t
      ∧ (t.slot k).state = .reporting ∧ (t.slot k).result = some (.bare .done)
      ∧ t.hasIssued (.resultWrite k) (recordAddr (s.slot k).batch (s.slot k).index + 40) 16
          (resultBytes (.bare .done))
      ∧ t.rt.hold = none ∧ s.onlySlot t k ∧ t.cu = s.cu ∧ t.tl = s.tl ∧ t.bc = s.bc ∧ t.mc = s.mc
      ∧ s.endsAccess tag t ∧ s.sameWindow t)
  ∧ (∀ (s : State) (i : SetId) (w : Way) (k : SlotId) (rest : List SlotId) (c : Context),
    (s.line i w).state.executes = true → (s.line i w).waiters = k :: rest →
    (s.slot k).context = some c → c.request.kind = .rawRead → (s.slot k).request = some c.request →
    (s.cacheSet i).waiting = [] → s.abandoning = false →
    ∃ t, exec (.stepExecution i w) s = .next t
      ∧ t.line i w = { s.line i w with waiters := rest } ∧ s.onlyLine t i w
      ∧ (t.cacheSet i).order = (s.cacheSet i).order.filter (· != w) ++ [w]
      ∧ t.slot k = { s.slot k with
          state := .storing, context := some { c with image := some (s.line i w).image }
          transfer := if s.mayIssue then .outstanding else .waiting }
      ∧ s.onlySlot t k ∧ s.addsOnly t (· == .bufferWrite k) ∧ s.keepsAccesses t
      ∧ (s.mayIssue = true →
          t.hasIssued (.bufferWrite k) c.request.operand 128 (s.line i w).image.bytes)
      ∧ t.rt.hold = s.rt.hold ∧ t.cu = s.cu ∧ t.tl = s.tl ∧ t.mc = s.mc ∧ s.sameWindow t)
  ∧ (∀ (s : State) (k : SlotId) (r : Result), s.ec.engine = .running →
    (s.rt.hold = some k → ∃ t, runTask (.finish k r) s = (t, [.consider]) ∧ t.rt.hold = none
      ∧ (t.slot k).state = .reporting
      ∧ ∀ j : SlotId, j ≠ k → t.slot j =
        if (s.slot j).state = .held then { s.slot j with considered := false } else s.slot j)
    ∧ (∀ (q : Request) (j : SlotId) (pre post : List SlotId), s.rt.hold ≠ some k →
      (s.slot k).request = some q → q.kind.keyed = true → (s.slot k).state ≠ .waitingKey →
      s.rt.age = pre ++ j :: post → (s.slot j).state = .waitingKey →
      (s.slot j).guardKey = some q.key →
      (∀ x ∈ pre, (s.slot x).state = .waitingKey → (s.slot x).guardKey ≠ some q.key) →
      ∃ t, runTask (.finish k r) s = (t, [.dispatch j, .owner]) ∧ s.onlySlot t k
        ∧ (t.slot k).state = .reporting ∧ (t.slot k).result = some r))
  ∧ (∀ (s : State) (k : SlotId) (r : Request), (s.slot k).request = some r → r.kind = .flush →
    ∃ t, runTask (.dispatch k) s = (t, [.flushCheck]) ∧ t.bc.flush = some k
      ∧ (t.slot k).state = .visiting ∧ s.onlySlot t k ∧ t.ec = s.ec ∧ t.bi = s.bi ∧ t.cu = s.cu
      ∧ ∀ (i : SetId) (w : Way),
        ((s.line i w).state ≠ .dirty → t.line i w = s.line i w)
        ∧ ((s.line i w).state = .dirty → t.line i w = { s.line i w with state := .writing }
          ∧ t.handsOver ⟨.bucket ((s.line i w).tag.getD 0), .write (s.line i w).image, .line i w⟩))
  ∧ ∀ (s : State) (k : SlotId), s.bc.flush = some k →
    let unwritten := ∃ (i : SetId) (w : Way), (s.line i w).state = .dirty
      ∨ (s.line i w).state = .writing ∨ (s.line i w).state = .rewrite
    (unwritten → runTask .flushCheck s = (s, []))
    ∧ (¬unwritten → runTask .flushCheck s =
      ({ s with bc := { s.bc with flush := none } }, [.finish k (.bare .done)]))

/-! ## Status writes -/

/-- A status write completes: the causes attached to it are set and the status write fault is cleared; an
owed block is written at once at the known address, its bytes the status block of the state after the
event, unless this stall's report was issued already. The status block: each field of its layout, read
back as a little-endian number; that the bits without a flag in bytes 1, 3, 6 and 113 are zero is the
model's choice (log entry 32). The codes of engine states, failure and refusal causes and poison
reasons. -/
def Obligations.StatusWriteCompletionSetsItsCauses : Prop :=
  (∀ (s : State) (tag : Nat) (a : BusAccess), s.awaits tag a → a.kind = .statusWrite →
    ∃ t, exec (.statusWriteCompletion tag) s = .next t
      ∧ t.ec = { s.ec with
          intCause := s.ec.intCause ||| s.ec.status.attachedCauses, statusWriteFault := false,
          status := t.ec.status }
      ∧ t.cu = s.cu ∧ s.sameTablePath t ∧ s.endsAccess tag t ∧ s.addsOnly t (fun _ => false)
      ∧ s.sameWindow t
      ∧ (∀ addr, s.ec.status.owed = .now → s.ec.statusAddr = some addr →
          ¬(s.ec.engine = .stalled ∧ s.ec.status.stallReportIssued = true) →
          t.ec.status.outstanding = some s.bi.nextTag ∧ t.ec.status.owed = .nothing
          ∧ t.ec.status.attachedCauses = s.ec.status.waitingCauses
          ∧ t.hasIssued .statusWrite addr t.statusBlock.length t.statusBlock)
      ∧ (s.ec.status.owed ≠ .now → t.ec.status.outstanding = none))
  ∧ (∀ s : State, s.poisonLaw →
    let num := fun off n : Nat =>
      ((s.statusBlock.drop off).take n).foldr (fun b x => b.toNat + 256 * x) 0
    s.statusBlock.length = 256
    ∧ num 0 1 = s.ec.engine.code
    ∧ num 1 1 = (if s.ec.stallHostFault then 1 else 0) + (if s.ec.stallBadBatch then 2 else 0)
    ∧ num 2 1 = s.ec.refusalCause.code
    ∧ num 3 1 = (if s.ec.refusedCommand = none then 0 else 1)
    ∧ num 4 1 = (s.ec.refusedCommand.getD 0).toNat ∧ num 5 1 = s.mc.laneFaults.toNat
    ∧ num 6 1 = (if s.cu.parked then 1 else 0) ∧ num 7 1 = 0
    ∧ num 8 4 = s.mc.rows.getD 0 % 2 ^ 32
    ∧ (s.ec.identity = none → num 12 12 = 0)
    ∧ (∀ n, s.ec.identity = some n → num 12 1 = 1 ∧ num 13 1 = n.size % 256 ∧ num 14 2 = 0
        ∧ num 16 8 = n.seed.toNat)
    ∧ num 24 8 = s.cu.retireSeq.toNat ∧ num 32 8 = s.ec.lastRetired.toNat
    ∧ num 40 8 = s.ec.counters.requestsCompleted.toNat
    ∧ num 48 8 = s.ec.counters.lookupsFound.toNat ∧ num 56 8 = s.ec.counters.fills.toNat
    ∧ num 64 8 = s.ec.counters.castouts.toNat ∧ num 72 8 = s.ec.counters.throughWrites.toNat
    ∧ num 80 8 = s.ec.counters.poisonings.toNat ∧ num 88 8 = s.ec.counters.readRetries.toNat
    ∧ num 96 8 = s.ec.counters.writeRetries.toNat
    ∧ num 104 8 = s.ec.counters.refreshOverruns.toNat
    ∧ num 112 1 = s.bc.poison.length ∧ num 113 1 = (if s.bc.overflow then 1 else 0)
    ∧ num 114 6 = 0
    ∧ (∀ (i : Nat) (e : PoisonEntry), s.bc.poison[i]? = some e →
        num (120 + 4 * i) 3 = e.bucket % 2 ^ 24 ∧ num (123 + 4 * i) 1 = e.reason.code)
    ∧ (∀ i < 32, s.bc.poison.length ≤ i → num (120 + 4 * i) 4 = 0) ∧ num 248 8 = 0)
  ∧ [EngineState.cold, .probing, .failed, .ready, .clearing, .running, .stopping, .stalled].map
      EngineState.code = [0, 1, 2, 3, 4, 5, 6, 7]
  ∧ [FailureCause.none, .bus, .profile, .lanes, .size].map FailureCause.code = [0, 1, 2, 3, 4]
  ∧ [RefusalCause.none, .bus, .profile, .identity].map RefusalCause.code = [0, 1, 2, 3]
  ∧ [PoisonReason.read, .write].map PoisonReason.code = [1, 2]

/-- A status write faults: the fault is shown and the attached causes are set. In RUNNING, and in
STOPPING for a STOP, the engine stalls with HOST_FAULT and the stall report issues at once, with STALL
and the causes that waited attached to it; when it was the stall report itself, nothing further issues.
In any other state nothing stalls: a block owed already is written at once, with the causes that waited;
otherwise it is owed again, and issues with the next update. (That a block owed already goes out at once
there is the model's choice, log entry 12.) -/
def Obligations.StatusWriteFaultByState : Prop :=
  ∀ (s : State) (tag : Nat) (a : BusAccess), s.awaits tag a → a.kind = .statusWrite →
    s.ec.statusAddr.isSome = true →
    ∃ t, exec (.statusWriteFault tag) s = .next t
      ∧ t.ec = { s.ec with
          engine := t.ec.engine, ending := t.ec.ending, resumeState := t.ec.resumeState,
          stallHostFault := t.ec.stallHostFault, statusWriteFault := true,
          intCause := s.ec.intCause ||| s.ec.status.attachedCauses, status := t.ec.status }
      ∧ t.cu = s.cu ∧ s.sameTablePath t ∧ s.endsAccess tag t ∧ s.addsOnly t (fun _ => false)
      ∧ s.sameWindow t
      ∧ (s.ec.engine = .running → t.ec.engine = .stalled ∧ t.ec.ending = .none ∧ t.ec.stallHostFault = true
          ∧ t.ec.resumeState = .running ∧ t.ec.status.stallReportIssued = true
          ∧ t.ec.status.attachedCauses = s.ec.status.waitingCauses ||| 4)
      ∧ (s.ec.engine = .stopping → s.ec.ending = .stop → t.ec.engine = .stalled
          ∧ t.ec.ending = .none ∧ t.ec.stallHostFault = true ∧ t.ec.resumeState = .stopping
          ∧ t.ec.status.stallReportIssued = true
          ∧ t.ec.status.attachedCauses = s.ec.status.waitingCauses ||| 4)
      ∧ (s.ec.engine = .stalled → s.ec.status.stallReportIssued = true →
          t.ec.engine = .stalled ∧ t.ec.status.outstanding = none)
      ∧ (s.ec.engine ≠ .running → ¬(s.ec.engine = .stopping ∧ s.ec.ending = .stop) →
          t.ec.engine = s.ec.engine ∧ t.ec.ending = s.ec.ending
          ∧ t.ec.stallHostFault = s.ec.stallHostFault ∧ t.ec.resumeState = s.ec.resumeState
          ∧ (s.ec.engine = .stalled → s.ec.status.stallReportIssued = true →
            t.bi = (s.endAccess tag).bi
            ∧ t.ec.status = { s.ec.status with attachedCauses := 0, outstanding := none })
          ∧ (¬(s.ec.engine = .stalled ∧ s.ec.status.stallReportIssued = true) →
            (∀ addr, s.ec.status.owed = .now → s.ec.statusAddr = some addr →
              t.hasIssued .statusWrite addr t.statusBlock.length t.statusBlock
              ∧ t.ec.status = ⟨.nothing, 0, s.ec.status.waitingCauses, some s.bi.nextTag,
                  s.ec.status.stallReportIssued || s.ec.engine == .stalled⟩)
            ∧ (s.ec.status.owed ≠ .now → t.bi = (s.endAccess tag).bi
              ∧ t.ec.status = { s.ec.status with
                  owed := .atNextUpdate, attachedCauses := 0, outstanding := none })))

/-! ## The devices' reports -/

/-- Good data arrives for the fill of a FILLING line, nothing waiting for a place in its bank queue: the
line is CLEAN with the 128 bytes as read, its waiters keep their places, and the access has left its
queue. -/
def Obligations.ReadDataArrivalFillsTheLine : Prop :=
  ∀ (s : State) (b : BankId) (age : Nat) (rest : List OutstandingRead) (a : Access)
    (i : SetId) (w : Way) (d : Block128),
    s.mc.reads = .access b age :: rest → s.queued b age = some a → a.orphan = false →
    a.body.requester = .line i w → (s.line i w).state = .filling →
    (Image.ofBits d).valid = true → s.mc.waits = [] → s.mc.accepting = true → s.statusLaw →
    ∃ t, exec (.readDataArrival d) s = .next t
      ∧ t.line i w = { s.line i w with state := .clean, image := Image.ofBits d }
      ∧ s.onlyLine t i w ∧ t.mc.reads = rest
      ∧ (t.bank b).queue = (s.bank b).queue.filter (fun c => c.age != age) ∧ s.onlyBank t b
      ∧ t.bi = s.bi ∧ t.ec = s.ec ∧ t.cu = s.cu ∧ t.rt = s.rt ∧ t.tl = s.tl
      ∧ t.bc.poison = s.bc.poison

/-- Data that fails its check for an attempt 1 of a read: the access is UNISSUED with attempt 2 at the
head of its queue, with its age and overtaken count, and the read retries rise by one, but not for
bring-up. (That it stands first even where an earlier retry of an older access of its bank is still
UNISSUED at the head is the model's choice, log entry 31.) -/
def Obligations.FirstCheckMismatchIsReadAgain : Prop :=
  ∀ (s : State) (b : BankId) (age : Nat) (rest : List OutstandingRead) (a : Access) (d : Block128),
    s.mc.reads = .access b age :: rest → s.queued b age = some a → a.orphan = false →
    a.attempt = 1 → (Image.ofBits d).valid = false → s.mc.accepting = true → s.statusLaw →
    ∃ t, exec (.readDataArrival d) s = .next t
      ∧ (t.bank b).queue = { a with issued := false, attempt := 2, alert := .stopped } ::
          (s.bank b).queue.filter (fun c => c.age != a.age)
      ∧ (t.bank b).state = (s.bank b).state ∧ (t.bank b).idleClose = .stopped ∧ s.onlyBank t b
      ∧ t.mc.reads = rest ∧ t.bi = s.bi ∧ t.cu = s.cu ∧ t.rt = s.rt ∧ t.tl = s.tl ∧ t.bc = s.bc
      ∧ t.ec = { s.ec with counters := { s.ec.counters with
          readRetries := s.ec.counters.readRetries +
            if a.body.requester = .bringup then 0 else 1 } }

/-- Data that fails its check for attempt 2 of the fill of a FILLING line whose one waiter is the visit 1
of a LOOKUP, in RUNNING, nothing else waiting: the bucket is poisoned with reason READ, the line is
FREE, and the LOOKUP ends POISONED; POISON is raised. With any number of waiters, and whatever else
waits, the bucket is entered at the tail of the list, or with 32 entries the overflow flag is set, the
line is FREE, and there follow the refusal of every waiter from head to tail, the retry of the set and
the look of the flush sweep. A refused visit 2 that holds a reservation goes to visit 3 with POISONED
pending; every other refused request ends POISONED. (That a refused request's arrival
at visit 3, and the visits which the end of one dispatches, come before the next refusal and before the
retry is the model's choice, log entry 7; the bound on the number of consequences is log entry 3's, and
the one status write at the event's end log entry 13's.) -/
def Obligations.SecondCheckMismatchPoisonsTheBucket : Prop :=
  (∀ (s : State) (b : BankId) (age : Nat) (rest : List OutstandingRead) (a : Access)
    (i : SetId) (w : Way) (bk : Bucket) (k : SlotId) (c : Context) (d : Block128),
    s.mc.reads = .access b age :: rest → s.queued b age = some a → a.orphan = false →
    a.attempt = 2 → a.body.requester = .line i w → (Image.ofBits d).valid = false →
    s.mc.waits = [] → s.mc.accepting = true → s.ec.engine = .running →
    (s.line i w).state = .filling → (s.line i w).tag = some bk → (s.line i w).waiters = [k] →
    (s.cacheSet i).waiting = [] → s.bc.flush = none → s.bc.poison.length < 32 →
    (s.slot k).context = some c → c.visit = .one → s.rt.hold = none →
    (∀ j : SlotId, (s.slot j).state ≠ .waitingKey) →
    ∃ t, exec (.readDataArrival d) s = .next t
      ∧ t.line i w = Line.empty ∧ s.onlyLine t i w
      ∧ t.bc.poison = s.bc.poison ++ [⟨bk, .read⟩] ∧ t.bc.overflow = s.bc.overflow
      ∧ t.ec.counters = { s.ec.counters with poisonings := s.ec.counters.poisonings + 1 }
      ∧ (t.slot k).state = .reporting ∧ (t.slot k).result = some (.bare .poisoned)
      ∧ s.onlySlot t k ∧ t.cu = s.cu ∧ t.tl = s.tl ∧ s.sameWindow t ∧ s.raisesCause t 16)
  ∧ (∀ (s : State) (b : BankId) (age : Nat) (rest : List OutstandingRead) (a : Access)
    (i : SetId) (w : Way) (bk : Bucket) (d : Block128),
    s.mc.reads = .access b age :: rest → s.queued b age = some a → a.orphan = false →
    a.attempt = 2 → a.body.requester = .line i w → (Image.ofBits d).valid = false →
    s.mc.waits = [] → s.mc.accepting = true → (s.line i w).state = .filling →
    (s.line i w).tag = some bk →
    ∃ u, exec (.readDataArrival d) s = outcomeOf (settle
        (u, (s.line i w).waiters.map Task.refuse ++ [.retry i, .flushCheck]))
      ∧ u.line i w = Line.empty ∧ s.onlyLine u i w ∧ u.rt = s.rt
      ∧ (s.bc.poison.length < 32 → u.bc.poison = s.bc.poison ++ [⟨bk, .read⟩]
          ∧ u.bc.overflow = s.bc.overflow)
      ∧ (32 ≤ s.bc.poison.length → u.bc.poison = s.bc.poison ∧ u.bc.overflow = true)
      ∧ u.ec.counters = { s.ec.counters with poisonings := s.ec.counters.poisonings + 1 }
      ∧ (u.bank b).queue = (s.bank b).queue.filter (fun c => c.age != age) ∧ s.onlyBank u b)
  ∧ (∀ (s : State) (k : SlotId) (c : Context), (s.slot k).context = some c →
    (c.visit = .two → c.reserved = true → runTask (.refuse k) s =
      (s.setSlot k { s.slot k with
        context := some { c with visit := .three, pendingResult := some (.bare .poisoned) } },
        [.arrive k]))
    ∧ ((c.visit ≠ .two ∨ c.reserved = false) →
      runTask (.refuse k) s = (s, [.finish k (.bare .poisoned)])))
  ∧ (∀ (n : Nat) (k : Task) (rest : List Task) (s : State),
      runTasks n [] s = some s
      ∧ runTasks (n + 1) (k :: rest) s
        = runTasks n ((runTask k s).2 ++ rest) (runTask k s).1)
  ∧ ∀ (s : State) (l : List Task),
      settle (s, l) = (runTasks Config.cascadeBound l s).map State.closeEvent

/-- A write alert: with no alert window open nothing changes (the model's choice, log entry 1); with
one, of a write on attempt 1 or 2 not issued before an engine reset, that write is UNISSUED at the head
of its queue with its attempt one higher, and the write retries rise by one, but not for bring-up. An
alert on attempt 3 of a line's write ends the access, and the line fails: its bucket is poisoned with
reason WRITE, the line is FREE, and there follow the ends POISONED of its current-write list and of its
next-write list, the refusal of its waiters, the new choice of its claimant, the retry of its set and
the look of the flush sweep. While the cache discards its lines the line only becomes FREE; the last
line then lets the sweep begin to write, or ends a sweep that STOP or ABANDON interrupted. (That the write
tried again stands first even where an earlier retry of an older access of its bank is still UNISSUED at
the head, where R121 and R137 differ, is the model's choice, log entry 31. That the visits which an end
POISONED dispatches, and those of refused waiters, arrive before the next end or refusal, before the
claimant's choice and before the retry of the set is the model's choice, log entry 7.) -/
def Obligations.WriteAlertRetriesTheWrite : Prop :=
  (∀ s : State, s.statusLaw → s.mc.accepting = true →
    (s.openWindows = [] → exec .writeAlert s = .next s)
    ∧ ∀ (b : BankId) (a : Access), s.openWindows = [(b, a)] → a.orphan = false →
      a.attempt ≤ 2 → ∃ t, exec .writeAlert s = .next t
        ∧ (t.bank b).queue =
            { a with issued := false, attempt := a.attempt + 1, alert := .stopped } ::
              (s.bank b).queue.filter (fun c => c.age != a.age)
        ∧ (t.bank b).state = (s.bank b).state ∧ s.onlyBank t b
        ∧ t.bi = s.bi ∧ t.cu = s.cu ∧ t.rt = s.rt ∧ t.tl = s.tl ∧ t.bc = s.bc
        ∧ t.ec = { s.ec with counters := { s.ec.counters with
            writeRetries := s.ec.counters.writeRetries +
              if a.body.requester = .bringup then 0 else 1 } })
  ∧ (∀ (s : State) (b : BankId) (a : Access) (i : SetId) (w : Way),
    s.openWindows = [(b, a)] → a.orphan = false → a.attempt = 3 →
    a.body.requester = .line i w → s.mc.waits = [] → s.mc.accepting = true →
    ∃ u, exec .writeAlert s = outcomeOf (settle (u, [.lineLost i w])) ∧ s.onlyController u
      ∧ (u.bank b).queue = (s.bank b).queue.filter (fun c => c.age != a.age) ∧ s.onlyBank u b)
  ∧ ∀ (s : State) (i : SetId) (w : Way) (bk : Bucket), (s.line i w).tag = some bk →
    ((s.line i w).state = .writing ∨ (s.line i w).state = .rewrite) →
    (s.ec.sweep.phase ≠ .discard → ∃ t,
      runTask (.lineLost i w) s = (t,
        ((s.line i w).current ++ (s.line i w).next).map (fun k => Task.finish k (.bare .poisoned))
          ++ (s.line i w).waiters.map Task.refuse
          ++ (s.line i w).claim.toList.map Task.rechoose ++ [.retry i, .flushCheck])
      ∧ t.line i w = Line.empty ∧ s.onlyLine t i w ∧ t.rt = s.rt ∧ t.mc = s.mc
      ∧ (t.cacheSet i).order = (s.cacheSet i).order
      ∧ (s.bc.poison.length < 32 → t.bc.poison = s.bc.poison ++ [⟨bk, .write⟩]
          ∧ t.bc.overflow = s.bc.overflow)
      ∧ (32 ≤ s.bc.poison.length → t.bc.poison = s.bc.poison ∧ t.bc.overflow = true)
      ∧ t.ec.counters = { s.ec.counters with poisonings := s.ec.counters.poisonings + 1 })
    ∧ (s.ec.sweep.phase = .discard →
      (∃ (j : SetId) (v : Way), (j ≠ i ∨ v ≠ w) ∧ (s.line j v).state ≠ .free) →
      runTask (.lineLost i w) s = (s.setLine i w Line.empty, []))
    ∧ (s.lastOfDiscard i w → ∃ t, runTask (.lineLost i w) s = (t, []) ∧ s.endsDiscard t i w)

/-- A write alert on attempt 3 of a clear sweep write, the one write with an open window, in CLEARING: the
bucket is poisoned with reason WRITE and counted, POISON is raised, and the outstanding count falls by
one; the sweep goes on. Where no access waits for that bank, nothing else moves. Where the sweep's own
write waits for it, that write takes the freed place, and the sweep hands over the next one, which waits
when it falls to the same full bank; the write of the last bucket makes the phase DRAINING. The
completion of the last write outstanding in DRAINING ends the sweep, which raises STATE: RUNNING with
the identity set and the header at the chain start read, or, after a STOP or ABANDON, READY. -/
def Obligations.SweepWritesEnd : Prop :=
  ∀ (s : State) (b : BankId) (a : Access) (bk : Bucket),
    a.orphan = false → a.body.requester = .sweep → a.body.place = .bucket bk →
    s.mc.accepting = true →
    (s.openWindows = [(b, a)] → a.attempt = 3 → s.ec.engine = .clearing →
      s.bc.poison.length < 32 →
      (∀ u ∈ s.mc.waits, u.place.bank ≠ b) →
      (s.ec.sweep.phase = .writing ∨ s.ec.sweep.phase = .draining) →
      1 < s.ec.sweep.outstanding → ∃ t, exec .writeAlert s = .next t
        ∧ t.bc = { s.bc with poison := s.bc.poison ++ [⟨bk, .write⟩] }
        ∧ t.ec = { s.ec with
            counters := { s.ec.counters with poisonings := s.ec.counters.poisonings + 1 }
            sweep := { s.ec.sweep with outstanding := s.ec.sweep.outstanding - 1 }
            status := t.ec.status, intCause := t.ec.intCause }
        ∧ s.raisesCause t 16 ∧ t.mc.waits = s.mc.waits
        ∧ (t.bank b).queue = (s.bank b).queue.filter (fun c => c.age != a.age) ∧ s.onlyBank t b
        ∧ t.cu = s.cu ∧ t.rt = s.rt ∧ t.tl = s.tl ∧ s.sameWindow t)
    ∧ (∀ n, s.openWindows = [(b, a)] → a.attempt = 3 → s.ec.engine = .clearing →
      s.bc.poison.length < 32 → s.ec.sweep.phase = .writing → 1 ≤ s.ec.sweep.outstanding →
      s.mc.waits = [⟨.bucket n, .write .blank, .sweep⟩] → bankOf n = b →
      bankOf s.ec.sweep.next = b →
      ((s.bank b).queue.filter (fun c => c.age != a.age)).length = 15 →
      ∃ t, exec .writeAlert s = .next t
        ∧ t.bc = { s.bc with poison := s.bc.poison ++ [⟨bk, .write⟩] }
        ∧ t.ec = { s.ec with
            counters := { s.ec.counters with poisonings := s.ec.counters.poisonings + 1 }
            sweep := { s.ec.sweep with
              next := s.ec.sweep.next + 1
              phase := if s.ec.sweep.next + 1 = 2 ^ s.tl.size then .draining else .writing }
            status := t.ec.status, intCause := t.ec.intCause }
        ∧ s.raisesCause t 16
        ∧ t.mc.waits = [⟨.bucket s.ec.sweep.next, .write .blank, .sweep⟩]
        ∧ (t.bank b).queue = (s.bank b).queue.filter (fun c => c.age != a.age)
            ++ [⟨⟨.bucket n, .write .blank, .sweep⟩, 1, 0, s.mc.nextAge, false, .stopped, false⟩]
        ∧ s.onlyBank t b ∧ t.cu = s.cu ∧ t.rt = s.rt ∧ t.tl = s.tl ∧ s.sameWindow t)
    ∧ (∀ age, s.openWindow age = some (b, a) → s.mc.waits = [] → s.ec.sweep.phase = .draining →
      s.ec.sweep.outstanding = 1 → ∃ t, exec (.alertWaitExpiry age) s = .next t
        ∧ t.ec.sweep.phase = .idle ∧ t.ec.sweep.outstanding = 0 ∧ t.bc = s.bc ∧ t.rt = s.rt
        ∧ t.tl = s.tl ∧ s.sameWindow t ∧ t.ec.counters = s.ec.counters
        ∧ (s.ec.ending = .none → aligned64 s.cu.chainStart = true → s.cu.batches = [] →
            s.readsHeader = false →
            t.ec.engine = .running ∧ t.ec.identity = some ⟨s.tl.size, s.tl.seed⟩
            ∧ t.cu = { s.cu with phase := .header, nextAddr := some s.cu.chainStart }
            ∧ t.hasIssued .headerRead s.cu.chainStart 64 [] ∧ s.raisesCause t 8)
        ∧ (s.ec.ending ≠ .none → t.ec.engine = .ready ∧ t.ec.ending = .none
            ∧ t.ec.identity = s.ec.identity ∧ t.cu = s.cu ∧ s.raisesCause t 8))

/-- ALERT_WAIT expires for the write of an unclaimed WRITING line with empty write lists, no discard and
no flush sweep in progress, nothing waiting: the line is CLEAN and the access has left its queue. In
general the access leaves its queue and the line takes the completion. WRITING: CLEAN, then each request
of the current-write list leaves the list and finishes with the result recorded. REWRITE: it first releases
its current-write list so, then looks at its next-write list: with one, a new write counted as a
through-write, that list now current; else, under the flush sweep, a further write that nothing counts;
else DIRTY. A claimed line is retagged for its claimant: FILLING, the claimant first, the waiting
requests for its bucket behind it, a fill counted and handed over; a claimant that needs no fill is given
the line whole. While the cache discards its lines the line becomes FREE, and the last one lets the sweep
begin to write, or ends an interrupted sweep. The place that the access leaves in its queue is taken by
the oldest access that waits for that bank. (That the visits dispatched as a request of the list finishes
arrive before the next request leaves the list and before the set retries is the model's choice, log
entry 7.) -/
def Obligations.AlertWaitExpiryCompletesTheWrite : Prop :=
  (∀ (s : State) (age : Nat) (b : BankId) (a : Access) (i : SetId) (w : Way),
    s.openWindow age = some (b, a) → a.orphan = false → a.body.requester = .line i w →
    (s.line i w).state = .writing → (s.line i w).claim = none → (s.line i w).current = [] →
    (s.cacheSet i).waiting = [] → s.bc.flush = none → s.ec.sweep.phase = .idle →
    s.mc.waits = [] → s.mc.accepting = true → s.statusLaw →
    ∃ t, exec (.alertWaitExpiry age) s = .next t
      ∧ t.line i w = { s.line i w with state := .clean } ∧ s.onlyLine t i w
      ∧ (t.bank b).queue = (s.bank b).queue.filter (fun c => c.age != age) ∧ s.onlyBank t b
      ∧ t.bi = s.bi ∧ t.ec = s.ec ∧ t.cu = s.cu ∧ t.rt = s.rt ∧ t.tl = s.tl
      ∧ t.bc.poison = s.bc.poison)
  ∧ (∀ (s : State) (age : Nat) (b : BankId) (a : Access) (i : SetId) (w : Way),
    s.openWindow age = some (b, a) → a.orphan = false → a.body.requester = .line i w →
    s.mc.accepting = true →
    let left := (s.bank b).queue.filter fun c => c.age != age
    ((∀ v ∈ s.mc.waits, v.place.bank ≠ b) →
      ∃ u, exec (.alertWaitExpiry age) s = outcomeOf (settle (u.writeCompleted i w))
        ∧ s.onlyController u ∧ s.onlyBank u b ∧ u.mc.waits = s.mc.waits
        ∧ (u.bank b).queue = left)
    ∧ ∀ pre v post, s.mc.waits = pre ++ v :: post → (∀ x ∈ pre, x.place.bank ≠ b) →
      v.place.bank = b → v.requester ≠ .sweep → left.length < 16 →
      ∃ u, exec (.alertWaitExpiry age) s = outcomeOf (settle (u.writeCompleted i w))
        ∧ s.onlyController u ∧ s.onlyBank u b ∧ u.mc.waits = pre ++ post
        ∧ (u.bank b).queue = left ++ [⟨v, 1, 0, s.mc.nextAge, false, .stopped, false⟩])
  ∧ ∀ (s : State) (i : SetId) (w : Way),
    let l := s.line i w
    let release := l.current.map (Task.leaveList i w)
    let write : Transaction := ⟨.bucket (l.tag.getD 0), .write l.image, .line i w⟩
    (s.ec.sweep.phase ≠ .discard →
      (l.state = .writing → l.claim = none → s.writeCompleted i w =
        (s.setLine i w { l with state := .clean }, release ++ [.retry i, .flushCheck]))
      ∧ (l.state = .rewrite → l.claim = none →
        s.writeCompleted i w = (s, release ++ [.lookNext i w]))
      ∧ (∀ k c im, l.state = .writing → l.claim = some k → (s.slot k).context = some c →
        (c.request.kind = .rawWrite ∧ c.image = some im) ∨ c.request.kind = .repair →
        ∃ t tasks, s.writeCompleted i w = (t, tasks ++ [.retry i])
          ∧ s.takesWhole t tasks i w k c im)
      ∧ ∀ k, l.state = .writing → l.claim = some k → s.needsNoFill k = false →
        let b := s.visitBucket k
        ∃ t, s.writeCompleted i w = (t, [.retry i]) ∧ s.onlyLine t i w ∧ t.rt = s.rt
          ∧ t.line i w = Line.filling b
              (k :: (s.cacheSet i).waiting.filter fun j => s.visitBucket j == b)
          ∧ (t.cacheSet i).waiting = (s.cacheSet i).waiting.filter (fun j => s.visitBucket j != b)
          ∧ (t.cacheSet i).order = (s.cacheSet i).order.filter (· != w) ++ [w]
          ∧ t.handsOver ⟨.bucket b, .read, .line i w⟩
          ∧ t.ec.counters = { s.ec.counters with fills := s.ec.counters.fills + 1 })
    ∧ (∀ k, runTask (.leaveList i w k) s =
      (s.setLine i w { l with current := l.current.filter (· != k) },
        [.finish k ((s.slot k).result.getD (.bare .done))]))
    ∧ (l.state = .rewrite →
      (l.next ≠ [] → ∃ t, runTask (.lookNext i w) s = (t, [])
        ∧ s.onlyLine t i w ∧ t.rt = s.rt ∧ t.handsOver write
        ∧ t.line i w = { l with state := .writing, current := l.next, next := [] }
        ∧ t.ec.counters = { s.ec.counters with
            throughWrites := s.ec.counters.throughWrites + 1 })
      ∧ (l.next = [] → s.bc.flush.isSome = true → ∃ t, runTask (.lookNext i w) s = (t, [])
        ∧ s.onlyLine t i w ∧ t.rt = s.rt ∧ t.handsOver write
        ∧ t.line i w = { l with state := .writing } ∧ t.ec = s.ec)
      ∧ (l.next = [] → s.bc.flush = none → runTask (.lookNext i w) s =
        (s.setLine i w { l with state := .dirty }, [.retry i])))
    ∧ (l.state ≠ .rewrite → runTask (.lookNext i w) s = (s, []))
    ∧ (s.ec.sweep.phase = .discard → (l.state = .writing ∨ l.state = .rewrite) →
      (∃ (j : SetId) (v : Way), (j ≠ i ∨ v ≠ w) ∧ (s.line j v).state ≠ .free) →
      s.writeCompleted i w = (s.setLine i w Line.empty, []))
    ∧ (s.lastOfDiscard i w → (l.state = .writing ∨ l.state = .rewrite) →
      ∃ t, s.writeCompleted i w = (t, []) ∧ s.endsDiscard t i w)

/-! ## Timers -/

/-- The bank timers: OPEN_WAIT makes an OPENING bank OPEN with its row, and idle if its queue holds no
UNISSUED access; HOLD_MIN opens its gate; CLOSE_WAIT makes a CLOSING bank CLOSED; IDLE_CLOSE makes the
bank a candidate. The column timers only stop. In the drain after an engine reset the expiry of the last
CLOSE_WAIT, with nothing in flight and every other bank CLOSED or REFRESHING, lets the controller accept
again, beginning with the accesses that wait. -/
def Obligations.BankAndColumnTimersExpire : Prop :=
  ∀ (s : State) (b : BankId) (g : GroupId),
    (∀ r, (s.bank b).state = .opening r → (s.bank b).openWait.isRunning = true →
      exec (.openWaitExpiry b) s = .next (s.setBank b { s.bank b with
        state := .opened r, openWait := .stopped
        idleClose := if (s.bank b).unissued = [] then
            .running (s.mc.profile.map MemoryProfile.idleClose)
          else (s.bank b).idleClose }))
    ∧ exec (.holdMinExpiry b) s = .next (s.setBank b { s.bank b with holdMin := .stopped })
    ∧ ((s.bank b).state = .closing → (s.bank b).closeWait.isRunning = true →
      s.mc.accepting = true → exec (.closeWaitExpiry b) s = .next (s.setBank b { s.bank b with
        state := .closed, closeWait := .stopped }))
    ∧ ((s.bank b).state = .closing → (s.bank b).closeWait.isRunning = true →
      s.mc.accepting = false → (∀ c : BankId, (s.bank c).queue = []
        ∧ (c ≠ b → (s.bank c).state = .closed ∨ (s.bank c).state = .refreshing)) →
      ∃ t, exec (.closeWaitExpiry b) s = .next t ∧ t.mc.accepting = true
        ∧ (∀ u ∈ s.mc.waits, t.handsOver u) ∧ t.bi = s.bi ∧ t.cu = s.cu ∧ t.rt = s.rt
        ∧ t.tl = s.tl ∧ t.bc = s.bc
        ∧ ∀ c : BankId, (t.bank c).state = if c = b then .closed else (s.bank c).state)
    ∧ ((s.bank b).state = .closing → (s.bank b).closeWait.isRunning = true →
      s.mc.accepting = false → (∃ c : BankId, (s.bank c).queue ≠ []
        ∨ c ≠ b ∧ (s.bank c).state ≠ .closed ∧ (s.bank c).state ≠ .refreshing) →
      exec (.closeWaitExpiry b) s = .next (s.setBank b { s.bank b with
        state := .closed, closeWait := .stopped }))
    ∧ ((s.bank b).idleClose.isRunning = true →
      ∃ t, exec (.idleCloseExpiry b) s = .next t ∧ s.onlyController t ∧ s.onlyBank t b
        ∧ t.bank b = { s.bank b with idleClose := .stopped }
        ∧ t.mc = { s.mc with
            banks := t.mc.banks, idleCandidates := s.mc.idleCandidates ++ [b] })
    ∧ exec (.gapNearExpiry g) s =
        .next { s with mc := { s.mc with near := s.mc.near.set g .stopped } }
    ∧ exec (.gapFarExpiry g) s =
        .next { s with mc := { s.mc with far := s.mc.far.set g .stopped } }
    ∧ exec .turnGapExpiry s = .next { s with mc := { s.mc with turnGap := .stopped } }

/-- REFRESH_PERIOD expires: it restarts; below 4 the owed count rises by one, and refresh is committed at
3 or more; at 4 an overrun is counted. REFRESH_WAIT expires: REFRESHING banks are CLOSED, the count
falls by one, and the commitment stands only at 3 or more. -/
def Obligations.RefreshTimersKeepTheAccount : Prop :=
  ∀ s : State,
    (s.mc.refreshPeriod.isRunning = true → s.mc.owed < 4 →
      exec .refreshPeriodExpiry s = .next { s with mc := { s.mc with
        refreshPeriod := .running (s.mc.profile.map MemoryProfile.refreshPeriod)
        owed := s.mc.owed + 1
        committed := s.mc.committed || decide (3 ≤ s.mc.owed + 1) } })
    ∧ (s.mc.refreshPeriod.isRunning = true → 4 ≤ s.mc.owed →
      exec .refreshPeriodExpiry s = .next { s with
        mc := { s.mc with
          refreshPeriod := .running (s.mc.profile.map MemoryProfile.refreshPeriod) }
        ec := { s.ec with counters := { s.ec.counters with
          refreshOverruns := s.ec.counters.refreshOverruns + 1 } } })
    ∧ (s.mc.refreshWait.isRunning = true → s.mc.accepting = true →
      ∃ t, exec .refreshWaitExpiry s = .next t ∧ s.onlyController t
        ∧ t.mc.owed = s.mc.owed - 1 ∧ t.mc.committed = decide (3 ≤ s.mc.owed - 1)
        ∧ t.mc.refreshWait = .stopped ∧ t.mc.waits = s.mc.waits
        ∧ ∀ b : BankId, t.bank b = { s.bank b with
            state := if (s.bank b).state = .refreshing then .closed else (s.bank b).state })

/-! ## The arbiter -/

/-- With refresh committed, and in the drain after an engine reset, the arbiter opens no bank, and with a
bank OPEN, none OPENING and HOLD_MIN expired at every OPEN bank it issues CLOSE_ALL. With refresh
committed and every bank CLOSED it issues REFRESH. (That the drain's CLOSE_ALL stands in class 1 is the
model's choice, log entry 18.) -/
def Obligations.CommittedRefreshTakesThePort : Prop :=
  ∀ s : State, (s.mc.committed = true ∨ s.mc.accepting = false) →
    (∃ t, exec .arbiterIssue s = .next t ∧ s.onlyController t
      ∧ ∀ (b : BankId) (r : Nat), (t.bank b).state = .opening r → (s.bank b).state = .opening r)
    ∧ (s.mc.committed = true → (∀ b : BankId, (s.bank b).state = .closed) → ∃ t, exec .arbiterIssue s = .next t
      ∧ s.onlyController t ∧ t.mc.port = some .refresh
      ∧ t.mc.refreshWait = .running (s.mc.profile.map MemoryProfile.refreshWait)
      ∧ ∀ b : BankId, t.bank b = { s.bank b with state := .refreshing })
    ∧ ((∃ (b : BankId) (r : Nat), (s.bank b).state = .opened r) →
      (∀ (b : BankId) (r : Nat), (s.bank b).state ≠ .opening r
        ∧ ((s.bank b).state = .opened r → (s.bank b).holdMin.isRunning = false)) →
      ∃ t, exec .arbiterIssue s = .next t ∧ s.onlyController t ∧ t.mc.port = some .closeAll
        ∧ ∀ b : BankId, (∀ r, (s.bank b).state = .opened r →
            t.bank b = { s.bank b with
              state := .closing, idleClose := .stopped
              closeWait := .running (s.mc.profile.map MemoryProfile.closeWait) })
          ∧ ((∀ r, (s.bank b).state ≠ .opened r) → t.bank b = s.bank b))

/-- The column command of a chosen access: it takes the port, with the image and check word of a write;
every UNISSUED access ahead of it in its queue is overtaken once more, it is ISSUED itself, the gaps
of both groups start, and in its closing form the bank begins to close. OPEN and CLOSE act on their bank
and start its timers. Without refresh work the choice is the first of classes 2 to 6 that gives a
command, in each class 2 to 5 that of the oldest access; class 7 commits a refresh. What each class
takes at a bank, what the next command of an access is, and which gates each command needs. The command's
form, and the check word a write carries: the CRC-32 of the image's other 124 bytes, register and result
inverted, each byte least significant bit first. -/
def Obligations.ColumnCommandOvertakesOlderAccesses : Prop :=
  (∀ (s : State) (b : BankId) (age : Nat) (pre post : List Access) (a : Access),
    s.choose = some (.column b age) → (s.bank b).queue = pre ++ a :: post → a.age = age →
    (∀ c ∈ pre, c.age ≠ age) → ∃ t, exec .arbiterIssue s = .next t ∧ s.onlyController t
      ∧ s.onlyBank t b
      ∧ (t.bank b).queue = pre.map (fun c =>
            if c.issued then c else { c with overtaken := c.overtaken + 1 })
          ++ { a with
            issued := true
            alert := if a.body.direction.isWrite then
                .running (s.mc.profile.map MemoryProfile.alertWait) else .stopped } :: post
      ∧ (t.bank b).state = (if s.closingForm b a then .closing else (s.bank b).state)
      ∧ t.mc.port = some (columnCommand b a (s.closingForm b a))
      ∧ t.mc.near[groupOf b] = .running (s.mc.profile.map MemoryProfile.gapNear)
      ∧ t.mc.near[otherGroup (groupOf b)] = s.mc.near[otherGroup (groupOf b)]
      ∧ t.mc.far[otherGroup (groupOf b)] = .running (s.mc.profile.map MemoryProfile.gapFar)
      ∧ t.mc.far[groupOf b] = s.mc.far[groupOf b]
      ∧ t.mc.turnGap = (if a.body.direction.isWrite then
          .running (s.mc.profile.map MemoryProfile.turnGap) else s.mc.turnGap)
      ∧ t.mc.waits = s.mc.waits ∧ t.mc.owed = s.mc.owed ∧ t.mc.committed = s.mc.committed
      ∧ t.mc.reads = s.mc.reads ++ (if a.body.direction.isWrite then [] else [.access b age]))
  ∧ (∀ (s : State) (b : BankId) (r : Nat), s.choose = some (.openRow b r) →
    ∃ t, exec .arbiterIssue s = .next t ∧ s.onlyController t ∧ s.onlyBank t b
      ∧ t.bank b = { s.bank b with
          state := .opening r
          openWait := .running (s.mc.profile.map MemoryProfile.openWait)
          holdMin := .running (s.mc.profile.map MemoryProfile.holdMin) }
      ∧ t.mc = { s.mc with banks := t.mc.banks, port := some (.openRow b r) })
  ∧ (∀ (s : State) (b : BankId), s.choose = some (.close b) → ∃ t,
    exec .arbiterIssue s = .next t ∧ s.onlyController t ∧ s.onlyBank t b
      ∧ t.bank b = { s.bank b with
          state := .closing, idleClose := .stopped
          closeWait := .running (s.mc.profile.map MemoryProfile.closeWait) }
      ∧ t.mc = { s.mc with
          banks := t.mc.banks, port := some (.close b)
          idleCandidates := s.mc.idleCandidates.filter (· != b) })
  ∧ (∀ s : State, s.choose = none →
    (s.mc.owed = 0 ∨ s.mc.committed = true
      ∨ (∃ b : BankId, ∃ a ∈ (s.bank b).queue, a.issued = false) →
      exec .arbiterIssue s = .next s)
    ∧ (1 ≤ s.mc.owed → s.mc.committed = false →
      (∀ b : BankId, ∀ a ∈ (s.bank b).queue, a.issued = true) →
      ∃ t, exec .arbiterIssue s = .next t ∧ s.onlyController t ∧ t.mc.committed = true))
  ∧ (∀ s : State, s.mc.committed = false → s.mc.accepting = true →
    s.choose = (oldestOf s.classTwoAt).or ((oldestOf s.classThreeAt).or
      ((oldestOf s.classFourAt).or ((oldestOf s.classFiveAt).or
        ((s.mc.idleCandidates.find? s.canClose).map .close)))))
  ∧ (∀ f : BankId → Option (Nat × Choice),
    (∀ c, oldestOf f = some c → ∃ b age, f b = some (age, c)
      ∧ ∀ b' age' c', f b' = some (age', c') → age ≤ age')
    ∧ (oldestOf f = none ↔ ∀ b, f b = none))
  ∧ (∀ (s : State) (b : BankId),
    let queue := (s.bank b).queue.filter fun a => !a.issued
    (∀ pre a post, queue = pre ++ a :: post →
      (a.overtaken = 8 → (∀ x ∈ pre, x.overtaken = 8 → s.nextCommand b x = none) →
        ∀ c, s.nextCommand b a = some c → s.classTwoAt b = some (a.age, c))
      ∧ (s.canColumn b a = true → (∀ x ∈ pre, s.canColumn b x = false) →
        s.classThreeAt b = some (a.age, .column b a.age)))
    ∧ ((∀ a ∈ queue, a.overtaken = 8 → s.nextCommand b a = none) → s.classTwoAt b = none)
    ∧ ((∀ a ∈ queue, s.canColumn b a = false) → s.classThreeAt b = none)
    ∧ (∀ a rest r, queue = a :: rest → (s.bank b).state = .opened r →
      (∀ x ∈ queue, x.body.place.row ≠ r) → (s.bank b).holdMin.isRunning = false →
      s.classFourAt b = some (a.age, .close b))
    ∧ (((∀ r, (s.bank b).state ≠ .opened r) ∨ (s.bank b).holdMin.isRunning = true ∨ queue = []
        ∨ ∃ r, (s.bank b).state = .opened r ∧ ∃ x ∈ queue, x.body.place.row = r) →
      s.classFourAt b = none)
    ∧ (∀ a rest, queue = a :: rest → s.classFiveAt b =
      if (s.bank b).state = .closed ∧ s.mc.committed = false ∧ s.mc.accepting = true then
        some (a.age, .openRow b a.body.place.row) else none)
    ∧ (queue = [] → s.classFiveAt b = none))
  ∧ (∀ (s : State) (b : BankId) (a : Access),
    let queue := (s.bank b).queue.filter fun x => !x.issued
    (∀ r, (s.bank b).state = .opened r → s.nextCommand b a =
      if r = a.body.place.row then
        if s.canColumn b a then some (.column b a.age) else none
      else if (s.bank b).holdMin.isRunning then none else some (.close b))
    ∧ ((s.bank b).state = .closed → s.nextCommand b a =
      if s.mc.committed = false ∧ s.mc.accepting = true then
        some (.openRow b a.body.place.row) else none)
    ∧ ((∀ r, (s.bank b).state ≠ .opened r) → (s.bank b).state ≠ .closed →
      s.nextCommand b a = none)
    ∧ (s.canColumn b a = true ↔ (s.bank b).state = .opened a.body.place.row
      ∧ s.mc.near[groupOf b].isRunning = false ∧ s.mc.far[groupOf b].isRunning = false
      ∧ (a.body.direction = .read → s.mc.turnGap.isRunning = false)
      ∧ (∀ pre x mid, (s.bank b).queue = pre ++ x :: mid → (∀ y ∈ pre, y.age ≠ a.age) →
          x.age ≠ a.age → x.issued = false → x.overtaken ≠ 8)
      ∧ (s.closingForm b a = true → (s.bank b).holdMin.isRunning = false))
    ∧ (s.canClose b = true ↔ (∃ r, (s.bank b).state = .opened r)
      ∧ (s.bank b).holdMin.isRunning = false)
    ∧ (s.closingForm b a = true ↔
      s.mc.profile.map MemoryProfile.closePolicy = some .closeEarly
        ∧ ∀ x ∈ queue, x.age ≠ a.age → x.body.place.row ≠ a.body.place.row))
  ∧ (∀ (b : BankId) (a : Access) (closing : Bool),
    let col := a.body.place.col
    columnCommand b a closing = match a.body.direction with
      | .read => if closing then .readClose b col else .read b col
      | .write im => if closing then .writeClose b col im.sealed else .write b col im.sealed)
  ∧ (∀ im : Image,
    let slot := fun k : Fin 5 => bytesOf 16 im.slots[k].key ++ bytesOf 8 im.slots[k].value
    let covered := [im.occupancy, im.spill] ++ bytesOf 2 im.reserved
      ++ slot 0 ++ slot 1 ++ slot 2 ++ slot 3 ++ slot 4
    im.sealed = { im with check :=
      ~~~(crcBits 0xFFFFFFFF (covered.flatMap fun x => (List.range 8).map x.getLsbD)) }
    ∧ (im.valid = true ↔ im.check = im.sealed.check))
  ∧ ∀ (reg : BitVec 32) (b : Bool) (bs : List Bool), crcBits reg [] = reg
    ∧ crcBits reg (b :: bs) =
      crcBits (if reg.getLsbD 0 = b then reg >>> 1 else reg >>> 1 ^^^ 0x82F63B78) bs

/-! ## Steps on a line -/

/-- The step of a non-modifying final outcome at the head of an executing line's queue, in RUNNING, with
nothing waiting on it: the request is answered, the line keeps image and state. -/
def Obligations.StepExecutionAnswersWithoutModifying : Prop :=
  ∀ (s : State) (i : SetId) (w : Way) (k : SlotId) (rest : List SlotId) (c : Context) (r : Result),
    (s.line i w).state.executes = true → (s.line i w).waiters = k :: rest →
    (s.slot k).context = some c → c.request.kind.keyed = true →
    (tableStep c (s.line i w).image).ending = .final r →
    (tableStep c (s.line i w).image).modifying = false →
    s.ec.engine = .running → s.rt.hold = none → (s.cacheSet i).waiting = [] →
    (∀ j : SlotId, (s.slot j).state ≠ .waitingKey) →
    ∃ t, exec (.stepExecution i w) s = .next t
      ∧ t.line i w = { s.line i w with waiters := rest } ∧ s.onlyLine t i w
      ∧ (t.cacheSet i).order = (s.cacheSet i).order.filter (· != w) ++ [w]
      ∧ (t.slot k).state = .reporting ∧ (t.slot k).result = some r ∧ s.onlySlot t k
      ∧ t.hasIssued (.resultWrite k) (recordAddr (s.slot k).batch (s.slot k).index + 40) 16
          (resultBytes r)
      ∧ t.cu = s.cu ∧ t.tl = s.tl ∧ t.mc = s.mc ∧ t.bc.poison = s.bc.poison
      ∧ t.ec.counters = s.ec.counters ∧ s.sameWindow t

/-- A final modifying step of a keyed request: under BACK, or under ADAPTIVE with its row not open, the line
takes the image, CLEAN or DIRTY becomes DIRTY and WRITING or REWRITE becomes REWRITE, and the request
is answered at once; under THROUGH, or under ADAPTIVE with its row open, a CLEAN or DIRTY line becomes
WRITING with the request in its current-write list, and a WRITING or REWRITE line REWRITE with it in
its next-write list. A step that sends its request on, under every policy and with no query: the request's
next visit arrives; if the step is modifying the line takes the image by the back treatment, and it
stays as it was otherwise; nothing is handed over. (That this arrival comes before the retry of the set,
where the queue is empty, is the model's choice, log entry 7.) -/
def Obligations.StepExecutionAppliesTheWritePolicy : Prop :=
  (∀ (s : State) (i : SetId) (w : Way) (k : SlotId) (rest : List SlotId) (c : Context) (r : Result),
    (s.line i w).waiters = k :: rest → (s.slot k).context = some c →
    c.request.kind.keyed = true → (s.line i w).claim = none →
    (tableStep c (s.line i w).image).ending = .final r →
    (tableStep c (s.line i w).image).modifying = true →
    s.ec.engine = .running → s.rt.hold = none → (s.cacheSet i).waiting = [] →
    (∀ j : SlotId, (s.slot j).state ≠ .waitingKey) →
    (s.bc.policy = .back ∨ (s.bc.policy = .adaptive ∧ s.openRow ((s.line i w).tag.getD 0) = false) →
      (s.line i w).state.executes = true →
      ∃ t, exec (.stepExecution i w) s = .next t
        ∧ t.line i w = { s.line i w with
            waiters := rest, image := (tableStep c (s.line i w).image).image
            state := if (s.line i w).state = .clean ∨ (s.line i w).state = .dirty then .dirty
              else .rewrite }
        ∧ s.onlyLine t i w ∧ (t.slot k).state = .reporting ∧ (t.slot k).result = some r
        ∧ s.onlySlot t k ∧ t.mc = s.mc ∧ t.cu = s.cu ∧ t.tl = s.tl
        ∧ t.ec.counters = s.ec.counters ∧ s.sameWindow t)
    ∧ (s.bc.policy = .through
        ∨ (s.bc.policy = .adaptive ∧ s.openRow ((s.line i w).tag.getD 0) = true) →
      ((s.line i w).state = .clean ∨ (s.line i w).state = .dirty) →
      ∃ t, exec (.stepExecution i w) s = .next t
        ∧ t.line i w = { s.line i w with
            waiters := rest, image := (tableStep c (s.line i w).image).image
            state := .writing, current := (s.line i w).current ++ [k] }
        ∧ s.onlyLine t i w ∧ (t.slot k).state = .awaitingWrite ∧ (t.slot k).result = some r
        ∧ s.onlySlot t k ∧ t.cu = s.cu ∧ t.tl = s.tl
        ∧ t.ec.counters = { s.ec.counters with
            throughWrites := s.ec.counters.throughWrites + 1 }
        ∧ ((∃ (b : BankId), ∃ x ∈ (t.bank b).queue, x.body = ⟨.bucket ((s.line i w).tag.getD 0),
              .write (tableStep c (s.line i w).image).image, .line i w⟩)
            ∨ ∃ x ∈ t.mc.waits, x = ⟨.bucket ((s.line i w).tag.getD 0),
              .write (tableStep c (s.line i w).image).image, .line i w⟩)
        ∧ s.sameWindow t)
    ∧ (s.bc.policy = .through
        ∨ (s.bc.policy = .adaptive ∧ s.openRow ((s.line i w).tag.getD 0) = true) →
      ((s.line i w).state = .writing ∨ (s.line i w).state = .rewrite) →
      ∃ t, exec (.stepExecution i w) s = .next t
        ∧ t.line i w = { s.line i w with
            waiters := rest, image := (tableStep c (s.line i w).image).image
            state := .rewrite, next := (s.line i w).next ++ [k] }
        ∧ s.onlyLine t i w ∧ (t.slot k).state = .awaitingWrite ∧ (t.slot k).result = some r
        ∧ s.onlySlot t k ∧ t.mc = s.mc ∧ t.cu = s.cu ∧ t.tl = s.tl
        ∧ t.ec.counters = s.ec.counters ∧ s.sameWindow t))
  ∧ ∀ (s : State) (i : SetId) (w : Way) (k : SlotId) (rest : List SlotId) (c : Context),
    (s.line i w).state.executes = true → (s.line i w).waiters = k :: rest →
    (s.slot k).context = some c → c.request.kind.keyed = true →
    (tableStep c (s.line i w).image).ending = .goOn →
    ∃ u, exec (.stepExecution i w) s = outcomeOf (settle
        (u, .arrive k :: if rest = [] then [.retry i] else []))
      ∧ (u.cacheSet i).order = (s.cacheSet i).order.filter (· != w) ++ [w] ∧ s.onlyLine u i w
      ∧ u.slot k = { s.slot k with
          context := some (tableStep c (s.line i w).image).context }
      ∧ s.onlySlot u k ∧ u.mc = s.mc ∧ u.ec = s.ec ∧ u.bi = s.bi ∧ u.cu = s.cu ∧ u.tl = s.tl
      ∧ ((tableStep c (s.line i w).image).modifying = false →
          u.line i w = { s.line i w with waiters := rest })
      ∧ ((tableStep c (s.line i w).image).modifying = true → u.line i w = { s.line i w with
          waiters := rest, image := (tableStep c (s.line i w).image).image
          state := if (s.line i w).state = .clean ∨ (s.line i w).state = .dirty then .dirty
            else .rewrite })

/-! ## The table's rules -/

/-- R11: with the fold F of the key's halves and the seed (R10), the primary bucket is the product
modulo 2^64 shifted right by 64 - S places, and lies below 2^S, for S from 10 to 24. -/
def Obligations.PrimaryBucketIsTheTopOfTheProduct : Prop :=
  ∀ (size : Nat) (seed : BitVec 64) (key : Key), 10 ≤ size → size ≤ 24 →
    let fold := key.extractLsb' 0 64 ^^^ key.extractLsb' 64 64 ^^^ seed
    primaryBucket size seed key
        = (fold.toNat * 0xD6E8FEB86659FD93) % 2 ^ 64 / 2 ^ (64 - size)
      ∧ primaryBucket size seed key < 2 ^ size

/-- R12: the alternate bucket is the top S bits of the rotated fold's product, replaced by P XOR 1 where
it equals the primary; it lies below 2^S and always differs from the primary. -/
def Obligations.AlternateBucketDiffersFromThePrimary : Prop :=
  ∀ (size : Nat) (seed : BitVec 64) (key : Key), 10 ≤ size → size ≤ 24 →
    (let f := (key.extractLsb' 0 64 ^^^ key.extractLsb' 64 64 ^^^ seed).toNat
     let rotated := f % 2 ^ 32 * 2 ^ 32 + f / 2 ^ 32
     let a := (rotated * 0xA0761D6478BD642F) % 2 ^ 64 / 2 ^ (64 - size)
     alternateBucket size seed key =
       if a = primaryBucket size seed key then primaryBucket size seed key ^^^ 1 else a)
    ∧ alternateBucket size seed key < 2 ^ size
    ∧ alternateBucket size seed key ≠ primaryBucket size seed key

/-- R30: the step that accumulates into a found entry writes the exact sum modulo 2^64 without CLAMP, and
the sum held to 0 and 2^64 - 1 with it; the result carries the new value and the slot; the key and
the other slots are unchanged, and the step is modifying. -/
def Obligations.AccumulateWritesTheSum : Prop :=
  ∀ (c : Context) (im : Image) (k : Fin 5) (create clamp : Bool),
    c.request.kind = .accumulate create clamp →
    let v : Int := im.slots[k].value.toNat
    let sum : Int := v + c.request.operand.toInt
    ∃ (x : BitVec 64) (code : ResultCode),
      applyFound c im k = (im.overwrite k x, true, ⟨code, c.at k, x⟩)
      ∧ (im.overwrite k x).slots[k] = ⟨im.slots[k].key, x⟩
      ∧ (∀ j : Fin 5, j ≠ k → (im.overwrite k x).slots[j] = im.slots[j])
      ∧ (clamp = false → (x.toNat : Int) = sum % 2 ^ 64 ∧ code = .accumulated)
      ∧ (clamp = true → sum < 0 → x = 0 ∧ code = .clamped)
      ∧ (clamp = true → 2 ^ 64 - 1 < sum → x.toNat = 2 ^ 64 - 1 ∧ code = .clamped)
      ∧ (clamp = true → 0 ≤ sum → sum ≤ 2 ^ 64 - 1 → (x.toNat : Int) = sum
          ∧ code = .accumulated)

/-- R8: the search finds the lowest-numbered occupied slot whose key equals the sought key, and nothing
when there is none; a step that removes or modifies the entry found acts on that slot alone. -/
def Obligations.SearchFindsTheLowestMatch : Prop :=
  ∀ (im : Image) (key : Key),
    (∀ k : Fin 5, im.search key = some k ↔
      (im.occupied k = true ∧ im.slots[k].key = key)
        ∧ ∀ j : Fin 5, j < k → ¬(im.occupied j = true ∧ im.slots[j].key = key))
    ∧ (im.search key = none ↔ ∀ k : Fin 5, ¬(im.occupied k = true ∧ im.slots[k].key = key))
    ∧ ∀ (c : Context) (k j : Fin 5), j ≠ k →
      (applyFound c im k).1.slots[j] = im.slots[j]
        ∧ (applyFound c im k).1.occupied j = im.occupied j

/-- R29: visit 3 of a DELETE lowers the spill count by one, not below 0, is modifying, and makes the
pending result final; a refused visit 3 ends the request POISONED. -/
def Obligations.DeleteReturnsToItsPrimary : Prop :=
  (∀ (c : Context) (im : Image) (r : Result), c.request.kind = .delete → c.visit = .three →
    c.pendingResult = some r →
    (tableStep c im).ending = .final r ∧ (tableStep c im).modifying = true
      ∧ (tableStep c im).image = { im with spill := (tableStep c im).image.spill }
      ∧ (tableStep c im).image.spill.toNat = im.spill.toNat - 1)
  ∧ ∀ (s : State) (k : SlotId) (c : Context), (s.slot k).context = some c → c.visit = .three →
    s.refuseVisit k = (s, [.finish k (.bare .poisoned)])

/-- A keyed request that does not place, on its visits 1 and 2, without a reservation. Key found: a LOOKUP
ends FOUND; an INSERT REPLACE overwrites and ends REPLACED with the old value; an ACCUMULATE without
CREATE accumulates and ends; a DELETE removes the entry, and ends DELETED at P, or at A goes on to
visit 3 with DELETED pending. Key not found: at P it ends ABSENT when the spill count is 0 and goes on
to A otherwise, reserving nothing; at A it ends ABSENT; neither bucket is changed. A LOOKUP never
modifies. -/
def Obligations.LookupSearchesItsBuckets : Prop :=
  ∀ (c : Context) (im : Image), c.request.kind.keyed = true → c.request.kind.placing = false →
    c.reserved = false → c.visit ≠ .three →
    let at' := fun k : Fin 5 =>
      some (⟨c.bucket, k, if c.visit = .one then .primary else .alternate⟩ : Location)
    (c.request.kind = .lookup →
      (tableStep c im).modifying = false ∧ (tableStep c im).image = im)
    ∧ (∀ k, im.search c.request.key = some k →
      (c.request.kind = .lookup →
        tableStep c im = ⟨im, false, c, .final ⟨.found, at' k, im.slots[k].value⟩⟩)
      ∧ (c.request.kind = .insert .replace → tableStep c im =
        ⟨im.overwrite k c.request.operand, true, c,
          .final ⟨.replaced, at' k, im.slots[k].value⟩⟩)
      ∧ (∀ clamp, c.request.kind = .accumulate false clamp →
        let sum := accumulate clamp im.slots[k].value c.request.operand
        tableStep c im =
          ⟨im.overwrite k sum.1, true, c, .final ⟨sum.2, at' k, sum.1⟩⟩)
      ∧ (c.request.kind = .delete →
        (c.visit = .one → tableStep c im =
          ⟨im.remove k, true, c, .final ⟨.deleted, at' k, im.slots[k].value⟩⟩)
        ∧ (c.visit = .two → tableStep c im = ⟨im.remove k, true,
          { c with
            visit := .three, pendingResult := some ⟨.deleted, at' k, im.slots[k].value⟩ },
          .goOn⟩))
      ∧ (im.remove k).occupied k = false ∧ (im.remove k).slots[k] = ⟨0, 0⟩
      ∧ (im.remove k).spill = im.spill)
    ∧ (im.search c.request.key = none →
      (c.visit = .one → im.spill = 0 →
        tableStep c im = ⟨im, false, c, .final (.bare .absent)⟩)
      ∧ (c.visit = .one → im.spill ≠ 0 →
        tableStep c im = ⟨im, false, { c with visit := .two }, .goOn⟩)
      ∧ (c.visit = .two → tableStep c im = ⟨im, false, c, .final (.bare .absent)⟩))

/-- A placing request (INSERT ADD or UPSERT, ACCUMULATE with CREATE). Key found: ADD keeps the value and
gives EXISTS, UPSERT overwrites and gives REPLACED with the old value, ACCUMULATE accumulates; at P, and
at A without a reservation, this ends the request; at A with one the result is pending and it returns
to P, where the count falls by one and the pending result is final. Key absent: at P with spill
count 0 it is placed in the lowest free slot, or, with none, reserves and goes on to A; at a count from
1 to 254 it reserves and goes on; at 255 it ends FULL. At A it is placed, or returns to P; back at P
the count falls by one and it is placed or ends FULL. The lowest free slot; what placing changes; the value
placed: the operand, or 0 for an ACCUMULATE with CLAMP and a negative delta. -/
def Obligations.PlacingRequestsPlaceOrReserve : Prop :=
  (∀ (c : Context) (im : Image), c.request.kind.placing = true →
    let v := placedValue c.request.kind c.request.operand
    (c.visit = .one → im.search c.request.key = none → im.spill = 0 → ∀ k, im.freeSlot = some k →
      tableStep c im = ⟨im.place k c.request.key v, true, { c with reserved := false },
        .final ⟨.inserted, some ⟨c.bucket, k, .primary⟩, v⟩⟩)
    ∧ (c.visit = .one → im.search c.request.key = none → im.spill ≠ 255 →
      (im.spill = 0 → im.freeSlot = none) →
      tableStep c im = ⟨{ im with spill := im.spill + 1 }, true,
        { c with reserved := true, visit := .two }, .goOn⟩)
    ∧ (c.visit = .one → im.search c.request.key = none → im.spill = 255 →
      tableStep c im = ⟨im, false, c, .final (.bare .full)⟩)
    ∧ (c.visit = .two → im.search c.request.key = none → ∀ k, im.freeSlot = some k →
      tableStep c im = ⟨im.place k c.request.key v, true, { c with reserved := false },
        .final ⟨.inserted, some ⟨c.bucket, k, .alternate⟩, v⟩⟩)
    ∧ (c.visit = .two → im.search c.request.key = none → im.freeSlot = none →
      tableStep c im = ⟨im, false, { c with visit := .three }, .goOn⟩)
    ∧ (c.visit = .three → c.pendingResult = none → ∀ k, im.freeSlot = some k →
      (tableStep c im).ending = .final ⟨.inserted, some ⟨c.bucket, k, .primary⟩, v⟩
        ∧ (tableStep c im).modifying = true
        ∧ (tableStep c im).image.spill.toNat = im.spill.toNat - 1
        ∧ (tableStep c im).image.slots = im.slots.set k ⟨c.request.key, v⟩)
    ∧ (c.visit = .three → c.pendingResult = none → im.freeSlot = none →
      (tableStep c im).ending = .final (.bare .full) ∧ (tableStep c im).modifying = true
        ∧ (tableStep c im).image.spill.toNat = im.spill.toNat - 1
        ∧ (tableStep c im).image.slots = im.slots)
    ∧ (∀ k, im.search c.request.key = some k →
      let side : Side := if c.visit = .one then .primary else .alternate
      let old := im.slots[k].value
      let (new, code, value) : Option (BitVec 64) × ResultCode × BitVec 64 :=
        match c.request.kind with
        | .insert .add => (none, .exists, old)
        | .accumulate _ clamp =>
          (some (accumulate clamp old c.request.operand).1,
            (accumulate clamp old c.request.operand).2,
            (accumulate clamp old c.request.operand).1)
        | _ => (some c.request.operand, .replaced, old)
      let result : Result := ⟨code, some ⟨c.bucket, k, side⟩, value⟩
      let image := (new.map (im.overwrite k)).getD im
      (c.visit = .one ∨ (c.visit = .two ∧ c.reserved = false) →
        tableStep c im = ⟨image, new.isSome, c, .final result⟩)
      ∧ (c.visit = .two → c.reserved = true → tableStep c im = ⟨image, new.isSome,
        { c with visit := .three, pendingResult := some result }, .goOn⟩))
    ∧ (∀ r, c.visit = .three → c.pendingResult = some r →
      (tableStep c im).ending = .final r ∧ (tableStep c im).modifying = true
        ∧ (tableStep c im).image.spill.toNat = im.spill.toNat - 1
        ∧ (tableStep c im).image.slots = im.slots
        ∧ (tableStep c im).image.occupancy = im.occupancy
        ∧ (tableStep c im).context.reserved = false))
  ∧ (∀ im : Image,
    (∀ k : Fin 5, im.occupied k = im.occupancy.getLsbD k)
    ∧ (∀ k : Fin 5, im.freeSlot = some k ↔
      im.occupied k = false ∧ ∀ j : Fin 5, j < k → im.occupied j = true)
    ∧ (im.freeSlot = none ↔ ∀ k : Fin 5, im.occupied k = true)
    ∧ ∀ (k : Fin 5) (key : Key) (v : BitVec 64), im.place k key v =
      { im with occupancy := im.occupancy ||| 1 <<< k.val, slots := im.slots.set k ⟨key, v⟩ })
  ∧ ∀ (kind : Kind) (operand : BitVec 64), placedValue kind operand =
    if (∃ create, kind = .accumulate create true) ∧ operand.toInt < 0 then 0 else operand

/-! ## The laws every step keeps -/

/-- The machine after reset satisfies every law. -/
def Obligations.ResetSatisfiesEveryLaw : Prop :=
  State.reset.identityLaw ∧ State.reset.owedLaw ∧ State.reset.poisonLaw ∧ State.reset.sizeLaw
    ∧ State.reset.queueLaw ∧ State.reset.statusLaw ∧ State.reset.claimLaw
    ∧ State.reset.batchLaw

/-- Every step keeps the law of the table identity (R157). -/
def Obligations.EveryStepKeepsTheIdentityLaw : Prop :=
  ∀ s t : State, s.identityLaw → step s = .next t → t.identityLaw

/-- Every step keeps the refresh owed count at 4 or less, the poison list at 32 entries or less, and the
size exponent from 10 to 24; and the open batches at 8 or fewer, with at most one header read outstanding
or remembered as faulted, and such a read only while fewer than 8 are open. Beside that, in every state:
the open batches grow only by the one batch that a header arrival takes, and a header read is issued, but
for one that had faulted and is issued again, only while fewer than 8 are open. -/
def Obligations.EveryStepKeepsTheCountLaws : Prop :=
  (∀ s t : State, s.owedLaw → s.poisonLaw → s.sizeLaw → step s = .next t →
    t.owedLaw ∧ t.poisonLaw ∧ t.sizeLaw)
  ∧ (∀ s t : State, s.batchLaw → step s = .next t → t.batchLaw)
  ∧ ∀ s t : State, step s = .next t →
    (t.cu.batches.length ≤ s.cu.batches.length
      ∨ ∃ tag d rest, s.pending = .headerArrival tag d :: rest ∧ s.cu.phase = .header
        ∧ t.cu.batches.length = s.cu.batches.length + 1)
    ∧ ∀ a ∈ t.bi.accesses, a ∉ s.bi.accesses → a.kind = .headerRead → a.live = true →
      a ∈ s.cu.faulted ∨ a ∈ s.rt.faulted ∨ t.cu.batches.length < 8

/-- Every step keeps every bank queue at 16 accesses or fewer, none overtaken more than 8 times, none past
attempt 3; and in every set at most one line claimed, a claimed line WRITING with its waiter queue and
both write lists empty. -/
def Obligations.EveryStepKeepsTheQueueLaw : Prop :=
  ∀ s t : State, step s = .next t → (s.queueLaw → t.queueLaw) ∧ (s.claimLaw → t.claimLaw)

/-- No step leaves an owed status write unissued that may issue. -/
def Obligations.EveryStepKeepsTheStatusLaw : Prop :=
  ∀ s t : State, s.statusLaw → step s = .next t → t.statusLaw
end

