-- ==== Sys2Proof/Laws/State.lean ====
section
/-! SUPPORT. One lemma for each block each update leaves alone, and for what an update writes, so that no
proof unfolds a record update. -/

namespace Sys2Proof.Machine

@[simp] theorem State.setSlot_bi (s : State) (k : SlotId) (x : Slot) :
    (s.setSlot k x).bi = s.bi := rfl
@[simp] theorem State.setSlot_ec (s : State) (k : SlotId) (x : Slot) :
    (s.setSlot k x).ec = s.ec := rfl
@[simp] theorem State.setSlot_cu (s : State) (k : SlotId) (x : Slot) :
    (s.setSlot k x).cu = s.cu := rfl
@[simp] theorem State.setSlot_tl (s : State) (k : SlotId) (x : Slot) :
    (s.setSlot k x).tl = s.tl := rfl
@[simp] theorem State.setSlot_bc (s : State) (k : SlotId) (x : Slot) :
    (s.setSlot k x).bc = s.bc := rfl
@[simp] theorem State.setSlot_mc (s : State) (k : SlotId) (x : Slot) :
    (s.setSlot k x).mc = s.mc := rfl
@[simp] theorem State.setSlot_pending (s : State) (k : SlotId) (x : Slot) :
    (s.setSlot k x).pending = s.pending := rfl

@[simp] theorem State.modifySlot_bi (s : State) (k : SlotId) (f : Slot → Slot) :
    (s.modifySlot k f).bi = s.bi := rfl
@[simp] theorem State.modifySlot_ec (s : State) (k : SlotId) (f : Slot → Slot) :
    (s.modifySlot k f).ec = s.ec := rfl
@[simp] theorem State.modifySlot_cu (s : State) (k : SlotId) (f : Slot → Slot) :
    (s.modifySlot k f).cu = s.cu := rfl
@[simp] theorem State.modifySlot_tl (s : State) (k : SlotId) (f : Slot → Slot) :
    (s.modifySlot k f).tl = s.tl := rfl
@[simp] theorem State.modifySlot_bc (s : State) (k : SlotId) (f : Slot → Slot) :
    (s.modifySlot k f).bc = s.bc := rfl
@[simp] theorem State.modifySlot_mc (s : State) (k : SlotId) (f : Slot → Slot) :
    (s.modifySlot k f).mc = s.mc := rfl
@[simp] theorem State.modifySlot_pending (s : State) (k : SlotId) (f : Slot → Slot) :
    (s.modifySlot k f).pending = s.pending := rfl

@[simp] theorem State.putSet_bi (s : State) (i : SetId) (c : CacheSet) :
    (s.putSet i c).bi = s.bi := rfl
@[simp] theorem State.putSet_ec (s : State) (i : SetId) (c : CacheSet) :
    (s.putSet i c).ec = s.ec := rfl
@[simp] theorem State.putSet_cu (s : State) (i : SetId) (c : CacheSet) :
    (s.putSet i c).cu = s.cu := rfl
@[simp] theorem State.putSet_rt (s : State) (i : SetId) (c : CacheSet) :
    (s.putSet i c).rt = s.rt := rfl
@[simp] theorem State.putSet_tl (s : State) (i : SetId) (c : CacheSet) :
    (s.putSet i c).tl = s.tl := rfl
@[simp] theorem State.putSet_mc (s : State) (i : SetId) (c : CacheSet) :
    (s.putSet i c).mc = s.mc := rfl
@[simp] theorem State.putSet_pending (s : State) (i : SetId) (c : CacheSet) :
    (s.putSet i c).pending = s.pending := rfl

@[simp] theorem State.setLine_bi (s : State) (i : SetId) (w : Way) (l : Line) :
    (s.setLine i w l).bi = s.bi := rfl
@[simp] theorem State.setLine_ec (s : State) (i : SetId) (w : Way) (l : Line) :
    (s.setLine i w l).ec = s.ec := rfl
@[simp] theorem State.setLine_cu (s : State) (i : SetId) (w : Way) (l : Line) :
    (s.setLine i w l).cu = s.cu := rfl
@[simp] theorem State.setLine_rt (s : State) (i : SetId) (w : Way) (l : Line) :
    (s.setLine i w l).rt = s.rt := rfl
@[simp] theorem State.setLine_tl (s : State) (i : SetId) (w : Way) (l : Line) :
    (s.setLine i w l).tl = s.tl := rfl
@[simp] theorem State.setLine_mc (s : State) (i : SetId) (w : Way) (l : Line) :
    (s.setLine i w l).mc = s.mc := rfl
@[simp] theorem State.setLine_pending (s : State) (i : SetId) (w : Way) (l : Line) :
    (s.setLine i w l).pending = s.pending := rfl

@[simp] theorem State.modifyLine_bi (s : State) (i : SetId) (w : Way) (f : Line → Line) :
    (s.modifyLine i w f).bi = s.bi := rfl
@[simp] theorem State.modifyLine_ec (s : State) (i : SetId) (w : Way) (f : Line → Line) :
    (s.modifyLine i w f).ec = s.ec := rfl
@[simp] theorem State.modifyLine_cu (s : State) (i : SetId) (w : Way) (f : Line → Line) :
    (s.modifyLine i w f).cu = s.cu := rfl
@[simp] theorem State.modifyLine_rt (s : State) (i : SetId) (w : Way) (f : Line → Line) :
    (s.modifyLine i w f).rt = s.rt := rfl
@[simp] theorem State.modifyLine_tl (s : State) (i : SetId) (w : Way) (f : Line → Line) :
    (s.modifyLine i w f).tl = s.tl := rfl
@[simp] theorem State.modifyLine_mc (s : State) (i : SetId) (w : Way) (f : Line → Line) :
    (s.modifyLine i w f).mc = s.mc := rfl
@[simp] theorem State.modifyLine_pending (s : State) (i : SetId) (w : Way) (f : Line → Line) :
    (s.modifyLine i w f).pending = s.pending := rfl

@[simp] theorem State.setBank_bi (s : State) (b : BankId) (x : Bank) :
    (s.setBank b x).bi = s.bi := rfl
@[simp] theorem State.setBank_ec (s : State) (b : BankId) (x : Bank) :
    (s.setBank b x).ec = s.ec := rfl
@[simp] theorem State.setBank_cu (s : State) (b : BankId) (x : Bank) :
    (s.setBank b x).cu = s.cu := rfl
@[simp] theorem State.setBank_rt (s : State) (b : BankId) (x : Bank) :
    (s.setBank b x).rt = s.rt := rfl
@[simp] theorem State.setBank_tl (s : State) (b : BankId) (x : Bank) :
    (s.setBank b x).tl = s.tl := rfl
@[simp] theorem State.setBank_bc (s : State) (b : BankId) (x : Bank) :
    (s.setBank b x).bc = s.bc := rfl
@[simp] theorem State.setBank_pending (s : State) (b : BankId) (x : Bank) :
    (s.setBank b x).pending = s.pending := rfl

@[simp] theorem State.modifyBank_bi (s : State) (b : BankId) (f : Bank → Bank) :
    (s.modifyBank b f).bi = s.bi := rfl
@[simp] theorem State.modifyBank_ec (s : State) (b : BankId) (f : Bank → Bank) :
    (s.modifyBank b f).ec = s.ec := rfl
@[simp] theorem State.modifyBank_cu (s : State) (b : BankId) (f : Bank → Bank) :
    (s.modifyBank b f).cu = s.cu := rfl
@[simp] theorem State.modifyBank_rt (s : State) (b : BankId) (f : Bank → Bank) :
    (s.modifyBank b f).rt = s.rt := rfl
@[simp] theorem State.modifyBank_tl (s : State) (b : BankId) (f : Bank → Bank) :
    (s.modifyBank b f).tl = s.tl := rfl
@[simp] theorem State.modifyBank_bc (s : State) (b : BankId) (f : Bank → Bank) :
    (s.modifyBank b f).bc = s.bc := rfl
@[simp] theorem State.modifyBank_pending (s : State) (b : BankId) (f : Bank → Bank) :
    (s.modifyBank b f).pending = s.pending := rfl

@[simp] theorem State.count_bi (s : State) (f : Counters → Counters) :
    (s.count f).bi = s.bi := rfl
@[simp] theorem State.count_cu (s : State) (f : Counters → Counters) :
    (s.count f).cu = s.cu := rfl
@[simp] theorem State.count_rt (s : State) (f : Counters → Counters) :
    (s.count f).rt = s.rt := rfl
@[simp] theorem State.count_tl (s : State) (f : Counters → Counters) :
    (s.count f).tl = s.tl := rfl
@[simp] theorem State.count_bc (s : State) (f : Counters → Counters) :
    (s.count f).bc = s.bc := rfl
@[simp] theorem State.count_mc (s : State) (f : Counters → Counters) :
    (s.count f).mc = s.mc := rfl
@[simp] theorem State.count_pending (s : State) (f : Counters → Counters) :
    (s.count f).pending = s.pending := rfl

@[simp] theorem State.issue_ec (s : State) (kind : AccessKind) (addr : Addr) (size : Nat) (data : List Byte) :
    (s.issue kind addr size data).ec = s.ec := rfl
@[simp] theorem State.issue_cu (s : State) (kind : AccessKind) (addr : Addr) (size : Nat) (data : List Byte) :
    (s.issue kind addr size data).cu = s.cu := rfl
@[simp] theorem State.issue_rt (s : State) (kind : AccessKind) (addr : Addr) (size : Nat) (data : List Byte) :
    (s.issue kind addr size data).rt = s.rt := rfl
@[simp] theorem State.issue_tl (s : State) (kind : AccessKind) (addr : Addr) (size : Nat) (data : List Byte) :
    (s.issue kind addr size data).tl = s.tl := rfl
@[simp] theorem State.issue_bc (s : State) (kind : AccessKind) (addr : Addr) (size : Nat) (data : List Byte) :
    (s.issue kind addr size data).bc = s.bc := rfl
@[simp] theorem State.issue_mc (s : State) (kind : AccessKind) (addr : Addr) (size : Nat) (data : List Byte) :
    (s.issue kind addr size data).mc = s.mc := rfl
@[simp] theorem State.issue_pending (s : State) (kind : AccessKind) (addr : Addr) (size : Nat) (data : List Byte) :
    (s.issue kind addr size data).pending = s.pending := rfl

@[simp] theorem State.issueRead_ec (s : State) (kind : AccessKind) (addr : Addr) (size : Nat) :
    (s.issueRead kind addr size).ec = s.ec := rfl
@[simp] theorem State.issueRead_cu (s : State) (kind : AccessKind) (addr : Addr) (size : Nat) :
    (s.issueRead kind addr size).cu = s.cu := rfl
@[simp] theorem State.issueRead_rt (s : State) (kind : AccessKind) (addr : Addr) (size : Nat) :
    (s.issueRead kind addr size).rt = s.rt := rfl
@[simp] theorem State.issueRead_tl (s : State) (kind : AccessKind) (addr : Addr) (size : Nat) :
    (s.issueRead kind addr size).tl = s.tl := rfl
@[simp] theorem State.issueRead_bc (s : State) (kind : AccessKind) (addr : Addr) (size : Nat) :
    (s.issueRead kind addr size).bc = s.bc := rfl
@[simp] theorem State.issueRead_mc (s : State) (kind : AccessKind) (addr : Addr) (size : Nat) :
    (s.issueRead kind addr size).mc = s.mc := rfl
@[simp] theorem State.issueRead_pending (s : State) (kind : AccessKind) (addr : Addr) (size : Nat) :
    (s.issueRead kind addr size).pending = s.pending := rfl

@[simp] theorem State.issueWrite_ec (s : State) (kind : AccessKind) (addr : Addr) (data : List Byte) :
    (s.issueWrite kind addr data).ec = s.ec := rfl
@[simp] theorem State.issueWrite_cu (s : State) (kind : AccessKind) (addr : Addr) (data : List Byte) :
    (s.issueWrite kind addr data).cu = s.cu := rfl
@[simp] theorem State.issueWrite_rt (s : State) (kind : AccessKind) (addr : Addr) (data : List Byte) :
    (s.issueWrite kind addr data).rt = s.rt := rfl
@[simp] theorem State.issueWrite_tl (s : State) (kind : AccessKind) (addr : Addr) (data : List Byte) :
    (s.issueWrite kind addr data).tl = s.tl := rfl
@[simp] theorem State.issueWrite_bc (s : State) (kind : AccessKind) (addr : Addr) (data : List Byte) :
    (s.issueWrite kind addr data).bc = s.bc := rfl
@[simp] theorem State.issueWrite_mc (s : State) (kind : AccessKind) (addr : Addr) (data : List Byte) :
    (s.issueWrite kind addr data).mc = s.mc := rfl
@[simp] theorem State.issueWrite_pending (s : State) (kind : AccessKind) (addr : Addr) (data : List Byte) :
    (s.issueWrite kind addr data).pending = s.pending := rfl

@[simp] theorem State.reissue_ec (s : State) (a : BusAccess) :
    (s.reissue a).ec = s.ec := rfl
@[simp] theorem State.reissue_cu (s : State) (a : BusAccess) :
    (s.reissue a).cu = s.cu := rfl
@[simp] theorem State.reissue_rt (s : State) (a : BusAccess) :
    (s.reissue a).rt = s.rt := rfl
@[simp] theorem State.reissue_tl (s : State) (a : BusAccess) :
    (s.reissue a).tl = s.tl := rfl
@[simp] theorem State.reissue_bc (s : State) (a : BusAccess) :
    (s.reissue a).bc = s.bc := rfl
@[simp] theorem State.reissue_mc (s : State) (a : BusAccess) :
    (s.reissue a).mc = s.mc := rfl
@[simp] theorem State.reissue_pending (s : State) (a : BusAccess) :
    (s.reissue a).pending = s.pending := rfl

@[simp] theorem State.endAccess_ec (s : State) (tag : Nat) :
    (s.endAccess tag).ec = s.ec := rfl
@[simp] theorem State.endAccess_cu (s : State) (tag : Nat) :
    (s.endAccess tag).cu = s.cu := rfl
@[simp] theorem State.endAccess_rt (s : State) (tag : Nat) :
    (s.endAccess tag).rt = s.rt := rfl
@[simp] theorem State.endAccess_tl (s : State) (tag : Nat) :
    (s.endAccess tag).tl = s.tl := rfl
@[simp] theorem State.endAccess_bc (s : State) (tag : Nat) :
    (s.endAccess tag).bc = s.bc := rfl
@[simp] theorem State.endAccess_mc (s : State) (tag : Nat) :
    (s.endAccess tag).mc = s.mc := rfl
@[simp] theorem State.endAccess_pending (s : State) (tag : Nat) :
    (s.endAccess tag).pending = s.pending := rfl

@[simp] theorem State.setStallCauses_bi (s : State) (host bad : Bool) :
    (s.setStallCauses host bad).bi = s.bi := rfl
@[simp] theorem State.setStallCauses_cu (s : State) (host bad : Bool) :
    (s.setStallCauses host bad).cu = s.cu := rfl
@[simp] theorem State.setStallCauses_rt (s : State) (host bad : Bool) :
    (s.setStallCauses host bad).rt = s.rt := rfl
@[simp] theorem State.setStallCauses_tl (s : State) (host bad : Bool) :
    (s.setStallCauses host bad).tl = s.tl := rfl
@[simp] theorem State.setStallCauses_bc (s : State) (host bad : Bool) :
    (s.setStallCauses host bad).bc = s.bc := rfl
@[simp] theorem State.setStallCauses_mc (s : State) (host bad : Bool) :
    (s.setStallCauses host bad).mc = s.mc := rfl
@[simp] theorem State.setStallCauses_pending (s : State) (host bad : Bool) :
    (s.setStallCauses host bad).pending = s.pending := rfl

@[simp] theorem State.touch_bi (s : State) (i : SetId) (w : Way) :
    (s.touch i w).bi = s.bi := rfl
@[simp] theorem State.touch_ec (s : State) (i : SetId) (w : Way) :
    (s.touch i w).ec = s.ec := rfl
@[simp] theorem State.touch_cu (s : State) (i : SetId) (w : Way) :
    (s.touch i w).cu = s.cu := rfl
@[simp] theorem State.touch_rt (s : State) (i : SetId) (w : Way) :
    (s.touch i w).rt = s.rt := rfl
@[simp] theorem State.touch_tl (s : State) (i : SetId) (w : Way) :
    (s.touch i w).tl = s.tl := rfl
@[simp] theorem State.touch_mc (s : State) (i : SetId) (w : Way) :
    (s.touch i w).mc = s.mc := rfl
@[simp] theorem State.touch_pending (s : State) (i : SetId) (w : Way) :
    (s.touch i w).pending = s.pending := rfl

@[simp] theorem State.setWaiting_bi (s : State) (i : SetId) (l : List SlotId) :
    (s.setWaiting i l).bi = s.bi := rfl
@[simp] theorem State.setWaiting_ec (s : State) (i : SetId) (l : List SlotId) :
    (s.setWaiting i l).ec = s.ec := rfl
@[simp] theorem State.setWaiting_cu (s : State) (i : SetId) (l : List SlotId) :
    (s.setWaiting i l).cu = s.cu := rfl
@[simp] theorem State.setWaiting_rt (s : State) (i : SetId) (l : List SlotId) :
    (s.setWaiting i l).rt = s.rt := rfl
@[simp] theorem State.setWaiting_tl (s : State) (i : SetId) (l : List SlotId) :
    (s.setWaiting i l).tl = s.tl := rfl
@[simp] theorem State.setWaiting_mc (s : State) (i : SetId) (l : List SlotId) :
    (s.setWaiting i l).mc = s.mc := rfl
@[simp] theorem State.setWaiting_pending (s : State) (i : SetId) (l : List SlotId) :
    (s.setWaiting i l).pending = s.pending := rfl

@[simp] theorem State.countFill_bi (s : State) :
    (s.countFill).bi = s.bi := rfl
@[simp] theorem State.countFill_cu (s : State) :
    (s.countFill).cu = s.cu := rfl
@[simp] theorem State.countFill_rt (s : State) :
    (s.countFill).rt = s.rt := rfl
@[simp] theorem State.countFill_tl (s : State) :
    (s.countFill).tl = s.tl := rfl
@[simp] theorem State.countFill_bc (s : State) :
    (s.countFill).bc = s.bc := rfl
@[simp] theorem State.countFill_mc (s : State) :
    (s.countFill).mc = s.mc := rfl
@[simp] theorem State.countFill_pending (s : State) :
    (s.countFill).pending = s.pending := rfl

@[simp] theorem State.countCastout_bi (s : State) :
    (s.countCastout).bi = s.bi := rfl
@[simp] theorem State.countCastout_cu (s : State) :
    (s.countCastout).cu = s.cu := rfl
@[simp] theorem State.countCastout_rt (s : State) :
    (s.countCastout).rt = s.rt := rfl
@[simp] theorem State.countCastout_tl (s : State) :
    (s.countCastout).tl = s.tl := rfl
@[simp] theorem State.countCastout_bc (s : State) :
    (s.countCastout).bc = s.bc := rfl
@[simp] theorem State.countCastout_mc (s : State) :
    (s.countCastout).mc = s.mc := rfl
@[simp] theorem State.countCastout_pending (s : State) :
    (s.countCastout).pending = s.pending := rfl

@[simp] theorem State.countThrough_bi (s : State) :
    (s.countThrough).bi = s.bi := rfl
@[simp] theorem State.countThrough_cu (s : State) :
    (s.countThrough).cu = s.cu := rfl
@[simp] theorem State.countThrough_rt (s : State) :
    (s.countThrough).rt = s.rt := rfl
@[simp] theorem State.countThrough_tl (s : State) :
    (s.countThrough).tl = s.tl := rfl
@[simp] theorem State.countThrough_bc (s : State) :
    (s.countThrough).bc = s.bc := rfl
@[simp] theorem State.countThrough_mc (s : State) :
    (s.countThrough).mc = s.mc := rfl
@[simp] theorem State.countThrough_pending (s : State) :
    (s.countThrough).pending = s.pending := rfl

@[simp] theorem State.setSequencer_bi (s : State) (p : SequencerPhase) :
    (s.setSequencer p).bi = s.bi := rfl
@[simp] theorem State.setSequencer_ec (s : State) (p : SequencerPhase) :
    (s.setSequencer p).ec = s.ec := rfl
@[simp] theorem State.setSequencer_cu (s : State) (p : SequencerPhase) :
    (s.setSequencer p).cu = s.cu := rfl
@[simp] theorem State.setSequencer_rt (s : State) (p : SequencerPhase) :
    (s.setSequencer p).rt = s.rt := rfl
@[simp] theorem State.setSequencer_tl (s : State) (p : SequencerPhase) :
    (s.setSequencer p).tl = s.tl := rfl
@[simp] theorem State.setSequencer_bc (s : State) (p : SequencerPhase) :
    (s.setSequencer p).bc = s.bc := rfl
@[simp] theorem State.setSequencer_pending (s : State) (p : SequencerPhase) :
    (s.setSequencer p).pending = s.pending := rfl

@[simp] theorem State.drive_bi (s : State) (c : DeviceCommand) :
    (s.drive c).bi = s.bi := rfl
@[simp] theorem State.drive_ec (s : State) (c : DeviceCommand) :
    (s.drive c).ec = s.ec := rfl
@[simp] theorem State.drive_cu (s : State) (c : DeviceCommand) :
    (s.drive c).cu = s.cu := rfl
@[simp] theorem State.drive_rt (s : State) (c : DeviceCommand) :
    (s.drive c).rt = s.rt := rfl
@[simp] theorem State.drive_tl (s : State) (c : DeviceCommand) :
    (s.drive c).tl = s.tl := rfl
@[simp] theorem State.drive_bc (s : State) (c : DeviceCommand) :
    (s.drive c).bc = s.bc := rfl
@[simp] theorem State.drive_pending (s : State) (c : DeviceCommand) :
    (s.drive c).pending = s.pending := rfl

@[simp] theorem State.setNudge_bi (s : State) :
    (s.setNudge).bi = s.bi := rfl
@[simp] theorem State.setNudge_ec (s : State) :
    (s.setNudge).ec = s.ec := rfl
@[simp] theorem State.setNudge_rt (s : State) :
    (s.setNudge).rt = s.rt := rfl
@[simp] theorem State.setNudge_tl (s : State) :
    (s.setNudge).tl = s.tl := rfl
@[simp] theorem State.setNudge_bc (s : State) :
    (s.setNudge).bc = s.bc := rfl
@[simp] theorem State.setNudge_mc (s : State) :
    (s.setNudge).mc = s.mc := rfl
@[simp] theorem State.setNudge_pending (s : State) :
    (s.setNudge).pending = s.pending := rfl

@[simp] theorem State.endFetch_bi (s : State) :
    (s.endFetch).bi = s.bi := rfl
@[simp] theorem State.endFetch_ec (s : State) :
    (s.endFetch).ec = s.ec := rfl
@[simp] theorem State.endFetch_rt (s : State) :
    (s.endFetch).rt = s.rt := rfl
@[simp] theorem State.endFetch_tl (s : State) :
    (s.endFetch).tl = s.tl := rfl
@[simp] theorem State.endFetch_bc (s : State) :
    (s.endFetch).bc = s.bc := rfl
@[simp] theorem State.endFetch_mc (s : State) :
    (s.endFetch).mc = s.mc := rfl
@[simp] theorem State.endFetch_pending (s : State) :
    (s.endFetch).pending = s.pending := rfl

@[simp] theorem State.statusEnded_bi (s : State) :
    (s.statusEnded).bi = s.bi := rfl
@[simp] theorem State.statusEnded_cu (s : State) :
    (s.statusEnded).cu = s.cu := rfl
@[simp] theorem State.statusEnded_rt (s : State) :
    (s.statusEnded).rt = s.rt := rfl
@[simp] theorem State.statusEnded_tl (s : State) :
    (s.statusEnded).tl = s.tl := rfl
@[simp] theorem State.statusEnded_bc (s : State) :
    (s.statusEnded).bc = s.bc := rfl
@[simp] theorem State.statusEnded_mc (s : State) :
    (s.statusEnded).mc = s.mc := rfl
@[simp] theorem State.statusEnded_pending (s : State) :
    (s.statusEnded).pending = s.pending := rfl

@[simp] theorem State.setAttached_bi (s : State) :
    (s.setAttached).bi = s.bi := rfl
@[simp] theorem State.setAttached_cu (s : State) :
    (s.setAttached).cu = s.cu := rfl
@[simp] theorem State.setAttached_rt (s : State) :
    (s.setAttached).rt = s.rt := rfl
@[simp] theorem State.setAttached_tl (s : State) :
    (s.setAttached).tl = s.tl := rfl
@[simp] theorem State.setAttached_bc (s : State) :
    (s.setAttached).bc = s.bc := rfl
@[simp] theorem State.setAttached_mc (s : State) :
    (s.setAttached).mc = s.mc := rfl
@[simp] theorem State.setAttached_pending (s : State) :
    (s.setAttached).pending = s.pending := rfl

@[simp] theorem State.statusWritten_bi (s : State) :
    (s.statusWritten).bi = s.bi := rfl
@[simp] theorem State.statusWritten_cu (s : State) :
    (s.statusWritten).cu = s.cu := rfl
@[simp] theorem State.statusWritten_rt (s : State) :
    (s.statusWritten).rt = s.rt := rfl
@[simp] theorem State.statusWritten_tl (s : State) :
    (s.statusWritten).tl = s.tl := rfl
@[simp] theorem State.statusWritten_bc (s : State) :
    (s.statusWritten).bc = s.bc := rfl
@[simp] theorem State.statusWritten_mc (s : State) :
    (s.statusWritten).mc = s.mc := rfl
@[simp] theorem State.statusWritten_pending (s : State) :
    (s.statusWritten).pending = s.pending := rfl

@[simp] theorem State.forgetRelease_bi (s : State) (a : Addr) :
    (s.forgetRelease a).bi = s.bi := rfl
@[simp] theorem State.forgetRelease_ec (s : State) (a : Addr) :
    (s.forgetRelease a).ec = s.ec := rfl
@[simp] theorem State.forgetRelease_rt (s : State) (a : Addr) :
    (s.forgetRelease a).rt = s.rt := rfl
@[simp] theorem State.forgetRelease_tl (s : State) (a : Addr) :
    (s.forgetRelease a).tl = s.tl := rfl
@[simp] theorem State.forgetRelease_bc (s : State) (a : Addr) :
    (s.forgetRelease a).bc = s.bc := rfl
@[simp] theorem State.forgetRelease_mc (s : State) (a : Addr) :
    (s.forgetRelease a).mc = s.mc := rfl
@[simp] theorem State.forgetRelease_pending (s : State) (a : Addr) :
    (s.forgetRelease a).pending = s.pending := rfl

@[simp] theorem State.startGaps_bi (s : State) (g : GroupId) (isWrite : Bool) :
    (s.startGaps g isWrite).bi = s.bi := rfl
@[simp] theorem State.startGaps_ec (s : State) (g : GroupId) (isWrite : Bool) :
    (s.startGaps g isWrite).ec = s.ec := rfl
@[simp] theorem State.startGaps_cu (s : State) (g : GroupId) (isWrite : Bool) :
    (s.startGaps g isWrite).cu = s.cu := rfl
@[simp] theorem State.startGaps_rt (s : State) (g : GroupId) (isWrite : Bool) :
    (s.startGaps g isWrite).rt = s.rt := rfl
@[simp] theorem State.startGaps_tl (s : State) (g : GroupId) (isWrite : Bool) :
    (s.startGaps g isWrite).tl = s.tl := rfl
@[simp] theorem State.startGaps_bc (s : State) (g : GroupId) (isWrite : Bool) :
    (s.startGaps g isWrite).bc = s.bc := rfl
@[simp] theorem State.startGaps_pending (s : State) (g : GroupId) (isWrite : Bool) :
    (s.startGaps g isWrite).pending = s.pending := rfl

@[simp] theorem State.openBank_bi (s : State) (b : BankId) (row : Nat) :
    (s.openBank b row).bi = s.bi := rfl
@[simp] theorem State.openBank_ec (s : State) (b : BankId) (row : Nat) :
    (s.openBank b row).ec = s.ec := rfl
@[simp] theorem State.openBank_cu (s : State) (b : BankId) (row : Nat) :
    (s.openBank b row).cu = s.cu := rfl
@[simp] theorem State.openBank_rt (s : State) (b : BankId) (row : Nat) :
    (s.openBank b row).rt = s.rt := rfl
@[simp] theorem State.openBank_tl (s : State) (b : BankId) (row : Nat) :
    (s.openBank b row).tl = s.tl := rfl
@[simp] theorem State.openBank_bc (s : State) (b : BankId) (row : Nat) :
    (s.openBank b row).bc = s.bc := rfl
@[simp] theorem State.openBank_pending (s : State) (b : BankId) (row : Nat) :
    (s.openBank b row).pending = s.pending := rfl

@[simp] theorem State.closeBank_bi (s : State) (b : BankId) :
    (s.closeBank b).bi = s.bi := rfl
@[simp] theorem State.closeBank_ec (s : State) (b : BankId) :
    (s.closeBank b).ec = s.ec := rfl
@[simp] theorem State.closeBank_cu (s : State) (b : BankId) :
    (s.closeBank b).cu = s.cu := rfl
@[simp] theorem State.closeBank_rt (s : State) (b : BankId) :
    (s.closeBank b).rt = s.rt := rfl
@[simp] theorem State.closeBank_tl (s : State) (b : BankId) :
    (s.closeBank b).tl = s.tl := rfl
@[simp] theorem State.closeBank_bc (s : State) (b : BankId) :
    (s.closeBank b).bc = s.bc := rfl
@[simp] theorem State.closeBank_pending (s : State) (b : BankId) :
    (s.closeBank b).pending = s.pending := rfl

@[simp] theorem State.wakeBank_bi (s : State) (b : BankId) :
    (s.wakeBank b).bi = s.bi := rfl
@[simp] theorem State.wakeBank_ec (s : State) (b : BankId) :
    (s.wakeBank b).ec = s.ec := rfl
@[simp] theorem State.wakeBank_cu (s : State) (b : BankId) :
    (s.wakeBank b).cu = s.cu := rfl
@[simp] theorem State.wakeBank_rt (s : State) (b : BankId) :
    (s.wakeBank b).rt = s.rt := rfl
@[simp] theorem State.wakeBank_tl (s : State) (b : BankId) :
    (s.wakeBank b).tl = s.tl := rfl
@[simp] theorem State.wakeBank_bc (s : State) (b : BankId) :
    (s.wakeBank b).bc = s.bc := rfl
@[simp] theorem State.wakeBank_pending (s : State) (b : BankId) :
    (s.wakeBank b).pending = s.pending := rfl

@[simp] theorem State.accept_bi (s : State) (t : Transaction) :
    (s.accept t).bi = s.bi := rfl
@[simp] theorem State.accept_ec (s : State) (t : Transaction) :
    (s.accept t).ec = s.ec := rfl
@[simp] theorem State.accept_cu (s : State) (t : Transaction) :
    (s.accept t).cu = s.cu := rfl
@[simp] theorem State.accept_rt (s : State) (t : Transaction) :
    (s.accept t).rt = s.rt := rfl
@[simp] theorem State.accept_tl (s : State) (t : Transaction) :
    (s.accept t).tl = s.tl := rfl
@[simp] theorem State.accept_bc (s : State) (t : Transaction) :
    (s.accept t).bc = s.bc := rfl
@[simp] theorem State.accept_pending (s : State) (t : Transaction) :
    (s.accept t).pending = s.pending := rfl

@[simp] theorem State.retryAccess_bi (s : State) (b : BankId) (a : Access) :
    (s.retryAccess b a).bi = s.bi := rfl
@[simp] theorem State.retryAccess_ec (s : State) (b : BankId) (a : Access) :
    (s.retryAccess b a).ec = s.ec := rfl
@[simp] theorem State.retryAccess_cu (s : State) (b : BankId) (a : Access) :
    (s.retryAccess b a).cu = s.cu := rfl
@[simp] theorem State.retryAccess_rt (s : State) (b : BankId) (a : Access) :
    (s.retryAccess b a).rt = s.rt := rfl
@[simp] theorem State.retryAccess_tl (s : State) (b : BankId) (a : Access) :
    (s.retryAccess b a).tl = s.tl := rfl
@[simp] theorem State.retryAccess_bc (s : State) (b : BankId) (a : Access) :
    (s.retryAccess b a).bc = s.bc := rfl
@[simp] theorem State.retryAccess_pending (s : State) (b : BankId) (a : Access) :
    (s.retryAccess b a).pending = s.pending := rfl

@[simp] theorem State.beginDeviceReset_bi (s : State) :
    (s.beginDeviceReset).bi = s.bi := rfl
@[simp] theorem State.beginDeviceReset_ec (s : State) :
    (s.beginDeviceReset).ec = s.ec := rfl
@[simp] theorem State.beginDeviceReset_cu (s : State) :
    (s.beginDeviceReset).cu = s.cu := rfl
@[simp] theorem State.beginDeviceReset_rt (s : State) :
    (s.beginDeviceReset).rt = s.rt := rfl
@[simp] theorem State.beginDeviceReset_tl (s : State) :
    (s.beginDeviceReset).tl = s.tl := rfl
@[simp] theorem State.beginDeviceReset_bc (s : State) :
    (s.beginDeviceReset).bc = s.bc := rfl
@[simp] theorem State.beginDeviceReset_pending (s : State) :
    (s.beginDeviceReset).pending = s.pending := rfl

@[simp] theorem State.endDeviceReset_bi (s : State) :
    (s.endDeviceReset).bi = s.bi := rfl
@[simp] theorem State.endDeviceReset_ec (s : State) :
    (s.endDeviceReset).ec = s.ec := rfl
@[simp] theorem State.endDeviceReset_cu (s : State) :
    (s.endDeviceReset).cu = s.cu := rfl
@[simp] theorem State.endDeviceReset_rt (s : State) :
    (s.endDeviceReset).rt = s.rt := rfl
@[simp] theorem State.endDeviceReset_tl (s : State) :
    (s.endDeviceReset).tl = s.tl := rfl
@[simp] theorem State.endDeviceReset_bc (s : State) :
    (s.endDeviceReset).bc = s.bc := rfl
@[simp] theorem State.endDeviceReset_pending (s : State) :
    (s.endDeviceReset).pending = s.pending := rfl

@[simp] theorem State.freeSlot_bi (s : State) (k : SlotId) :
    (s.freeSlot k).bi = s.bi := rfl
@[simp] theorem State.freeSlot_ec (s : State) (k : SlotId) :
    (s.freeSlot k).ec = s.ec := rfl
@[simp] theorem State.freeSlot_tl (s : State) (k : SlotId) :
    (s.freeSlot k).tl = s.tl := rfl
@[simp] theorem State.freeSlot_bc (s : State) (k : SlotId) :
    (s.freeSlot k).bc = s.bc := rfl
@[simp] theorem State.freeSlot_mc (s : State) (k : SlotId) :
    (s.freeSlot k).mc = s.mc := rfl
@[simp] theorem State.freeSlot_pending (s : State) (k : SlotId) :
    (s.freeSlot k).pending = s.pending := rfl

@[simp] theorem State.updateBatch_bi (s : State) (a : Addr) (f : OpenBatch → OpenBatch) :
    (s.updateBatch a f).bi = s.bi := rfl
@[simp] theorem State.updateBatch_ec (s : State) (a : Addr) (f : OpenBatch → OpenBatch) :
    (s.updateBatch a f).ec = s.ec := rfl
@[simp] theorem State.updateBatch_rt (s : State) (a : Addr) (f : OpenBatch → OpenBatch) :
    (s.updateBatch a f).rt = s.rt := rfl
@[simp] theorem State.updateBatch_tl (s : State) (a : Addr) (f : OpenBatch → OpenBatch) :
    (s.updateBatch a f).tl = s.tl := rfl
@[simp] theorem State.updateBatch_bc (s : State) (a : Addr) (f : OpenBatch → OpenBatch) :
    (s.updateBatch a f).bc = s.bc := rfl
@[simp] theorem State.updateBatch_mc (s : State) (a : Addr) (f : OpenBatch → OpenBatch) :
    (s.updateBatch a f).mc = s.mc := rfl
@[simp] theorem State.updateBatch_pending (s : State) (a : Addr) (f : OpenBatch → OpenBatch) :
    (s.updateBatch a f).pending = s.pending := rfl

@[simp] theorem State.giveSlot_bi (s : State) (b : OpenBatch) (k : SlotId) :
    (s.giveSlot b k).bi = s.bi := rfl
@[simp] theorem State.giveSlot_ec (s : State) (b : OpenBatch) (k : SlotId) :
    (s.giveSlot b k).ec = s.ec := rfl
@[simp] theorem State.giveSlot_tl (s : State) (b : OpenBatch) (k : SlotId) :
    (s.giveSlot b k).tl = s.tl := rfl
@[simp] theorem State.giveSlot_bc (s : State) (b : OpenBatch) (k : SlotId) :
    (s.giveSlot b k).bc = s.bc := rfl
@[simp] theorem State.giveSlot_mc (s : State) (b : OpenBatch) (k : SlotId) :
    (s.giveSlot b k).mc = s.mc := rfl
@[simp] theorem State.giveSlot_pending (s : State) (b : OpenBatch) (k : SlotId) :
    (s.giveSlot b k).pending = s.pending := rfl

@[simp] theorem State.markAnchorRetired_bi (s : State) (a : Addr) :
    (s.markAnchorRetired a).bi = s.bi := rfl
@[simp] theorem State.markAnchorRetired_ec (s : State) (a : Addr) :
    (s.markAnchorRetired a).ec = s.ec := rfl
@[simp] theorem State.markAnchorRetired_rt (s : State) (a : Addr) :
    (s.markAnchorRetired a).rt = s.rt := rfl
@[simp] theorem State.markAnchorRetired_tl (s : State) (a : Addr) :
    (s.markAnchorRetired a).tl = s.tl := rfl
@[simp] theorem State.markAnchorRetired_bc (s : State) (a : Addr) :
    (s.markAnchorRetired a).bc = s.bc := rfl
@[simp] theorem State.markAnchorRetired_mc (s : State) (a : Addr) :
    (s.markAnchorRetired a).mc = s.mc := rfl
@[simp] theorem State.markAnchorRetired_pending (s : State) (a : Addr) :
    (s.markAnchorRetired a).pending = s.pending := rfl

@[simp] theorem State.countAnswer_bi (s : State) (x : Slot) :
    (s.countAnswer x).bi = s.bi := rfl
@[simp] theorem State.countAnswer_rt (s : State) (x : Slot) :
    (s.countAnswer x).rt = s.rt := rfl
@[simp] theorem State.countAnswer_tl (s : State) (x : Slot) :
    (s.countAnswer x).tl = s.tl := rfl
@[simp] theorem State.countAnswer_bc (s : State) (x : Slot) :
    (s.countAnswer x).bc = s.bc := rfl
@[simp] theorem State.countAnswer_mc (s : State) (x : Slot) :
    (s.countAnswer x).mc = s.mc := rfl
@[simp] theorem State.countAnswer_pending (s : State) (x : Slot) :
    (s.countAnswer x).pending = s.pending := rfl

@[simp] theorem State.issueResult_ec (s : State) (k : SlotId) :
    (s.issueResult k).ec = s.ec := rfl
@[simp] theorem State.issueResult_cu (s : State) (k : SlotId) :
    (s.issueResult k).cu = s.cu := rfl
@[simp] theorem State.issueResult_tl (s : State) (k : SlotId) :
    (s.issueResult k).tl = s.tl := rfl
@[simp] theorem State.issueResult_bc (s : State) (k : SlotId) :
    (s.issueResult k).bc = s.bc := rfl
@[simp] theorem State.issueResult_mc (s : State) (k : SlotId) :
    (s.issueResult k).mc = s.mc := rfl
@[simp] theorem State.issueResult_pending (s : State) (k : SlotId) :
    (s.issueResult k).pending = s.pending := rfl

@[simp] theorem State.issueStatus_cu (s : State) :
    (s.issueStatus).cu = s.cu := rfl
@[simp] theorem State.issueStatus_rt (s : State) :
    (s.issueStatus).rt = s.rt := rfl
@[simp] theorem State.issueStatus_tl (s : State) :
    (s.issueStatus).tl = s.tl := rfl
@[simp] theorem State.issueStatus_bc (s : State) :
    (s.issueStatus).bc = s.bc := rfl
@[simp] theorem State.issueStatus_mc (s : State) :
    (s.issueStatus).mc = s.mc := rfl
@[simp] theorem State.issueStatus_pending (s : State) :
    (s.issueStatus).pending = s.pending := rfl

@[simp] theorem State.discardSlot_bi (s : State) (k : SlotId) :
    (s.discardSlot k).bi = s.bi := rfl
@[simp] theorem State.discardSlot_ec (s : State) (k : SlotId) :
    (s.discardSlot k).ec = s.ec := rfl
@[simp] theorem State.discardSlot_cu (s : State) (k : SlotId) :
    (s.discardSlot k).cu = s.cu := rfl
@[simp] theorem State.discardSlot_tl (s : State) (k : SlotId) :
    (s.discardSlot k).tl = s.tl := rfl
@[simp] theorem State.discardSlot_bc (s : State) (k : SlotId) :
    (s.discardSlot k).bc = s.bc := rfl
@[simp] theorem State.discardSlot_mc (s : State) (k : SlotId) :
    (s.discardSlot k).mc = s.mc := rfl
@[simp] theorem State.discardSlot_pending (s : State) (k : SlotId) :
    (s.discardSlot k).pending = s.pending := rfl

@[simp] theorem State.clearHold_bi (s : State) :
    (s.clearHold).bi = s.bi := rfl
@[simp] theorem State.clearHold_ec (s : State) :
    (s.clearHold).ec = s.ec := rfl
@[simp] theorem State.clearHold_cu (s : State) :
    (s.clearHold).cu = s.cu := rfl
@[simp] theorem State.clearHold_tl (s : State) :
    (s.clearHold).tl = s.tl := rfl
@[simp] theorem State.clearHold_bc (s : State) :
    (s.clearHold).bc = s.bc := rfl
@[simp] theorem State.clearHold_mc (s : State) :
    (s.clearHold).mc = s.mc := rfl
@[simp] theorem State.clearHold_pending (s : State) :
    (s.clearHold).pending = s.pending := rfl

@[simp] theorem State.setVisiting_bi (s : State) (k : SlotId) (r : Request) :
    (s.setVisiting k r).bi = s.bi := rfl
@[simp] theorem State.setVisiting_ec (s : State) (k : SlotId) (r : Request) :
    (s.setVisiting k r).ec = s.ec := rfl
@[simp] theorem State.setVisiting_cu (s : State) (k : SlotId) (r : Request) :
    (s.setVisiting k r).cu = s.cu := rfl
@[simp] theorem State.setVisiting_tl (s : State) (k : SlotId) (r : Request) :
    (s.setVisiting k r).tl = s.tl := rfl
@[simp] theorem State.setVisiting_bc (s : State) (k : SlotId) (r : Request) :
    (s.setVisiting k r).bc = s.bc := rfl
@[simp] theorem State.setVisiting_mc (s : State) (k : SlotId) (r : Request) :
    (s.setVisiting k r).mc = s.mc := rfl
@[simp] theorem State.setVisiting_pending (s : State) (k : SlotId) (r : Request) :
    (s.setVisiting k r).pending = s.pending := rfl

@[simp] theorem State.loadArrived_bi (s : State) (k : SlotId) (d : Block128) :
    (s.loadArrived k d).bi = s.bi := rfl
@[simp] theorem State.loadArrived_ec (s : State) (k : SlotId) (d : Block128) :
    (s.loadArrived k d).ec = s.ec := rfl
@[simp] theorem State.loadArrived_cu (s : State) (k : SlotId) (d : Block128) :
    (s.loadArrived k d).cu = s.cu := rfl
@[simp] theorem State.loadArrived_tl (s : State) (k : SlotId) (d : Block128) :
    (s.loadArrived k d).tl = s.tl := rfl
@[simp] theorem State.loadArrived_bc (s : State) (k : SlotId) (d : Block128) :
    (s.loadArrived k d).bc = s.bc := rfl
@[simp] theorem State.loadArrived_mc (s : State) (k : SlotId) (d : Block128) :
    (s.loadArrived k d).mc = s.mc := rfl
@[simp] theorem State.loadArrived_pending (s : State) (k : SlotId) (d : Block128) :
    (s.loadArrived k d).pending = s.pending := rfl

@[simp] theorem State.takeProfile_bi (s : State) (p : TableProfile) :
    (s.takeProfile p).bi = s.bi := rfl
@[simp] theorem State.takeProfile_rt (s : State) (p : TableProfile) :
    (s.takeProfile p).rt = s.rt := rfl
@[simp] theorem State.takeProfile_mc (s : State) (p : TableProfile) :
    (s.takeProfile p).mc = s.mc := rfl
@[simp] theorem State.takeProfile_pending (s : State) (p : TableProfile) :
    (s.takeProfile p).pending = s.pending := rfl

@[simp] theorem State.withPending_bi (s : State) (q : List Instr) :
    (s.withPending q).bi = s.bi := rfl
@[simp] theorem State.withPending_ec (s : State) (q : List Instr) :
    (s.withPending q).ec = s.ec := rfl
@[simp] theorem State.withPending_cu (s : State) (q : List Instr) :
    (s.withPending q).cu = s.cu := rfl
@[simp] theorem State.withPending_rt (s : State) (q : List Instr) :
    (s.withPending q).rt = s.rt := rfl
@[simp] theorem State.withPending_tl (s : State) (q : List Instr) :
    (s.withPending q).tl = s.tl := rfl
@[simp] theorem State.withPending_bc (s : State) (q : List Instr) :
    (s.withPending q).bc = s.bc := rfl
@[simp] theorem State.withPending_mc (s : State) (q : List Instr) :
    (s.withPending q).mc = s.mc := rfl

@[simp] theorem State.count_ec_engine (s : State) (f : Counters → Counters) :
    (s.count f).ec.engine = s.ec.engine := rfl
@[simp] theorem State.count_ec_ending (s : State) (f : Counters → Counters) :
    (s.count f).ec.ending = s.ec.ending := rfl
@[simp] theorem State.count_ec_resumeState (s : State) (f : Counters → Counters) :
    (s.count f).ec.resumeState = s.ec.resumeState := rfl
@[simp] theorem State.count_ec_stallHostFault (s : State) (f : Counters → Counters) :
    (s.count f).ec.stallHostFault = s.ec.stallHostFault := rfl
@[simp] theorem State.count_ec_stallBadBatch (s : State) (f : Counters → Counters) :
    (s.count f).ec.stallBadBatch = s.ec.stallBadBatch := rfl
@[simp] theorem State.count_ec_failureCause (s : State) (f : Counters → Counters) :
    (s.count f).ec.failureCause = s.ec.failureCause := rfl
@[simp] theorem State.count_ec_refusalCause (s : State) (f : Counters → Counters) :
    (s.count f).ec.refusalCause = s.ec.refusalCause := rfl
@[simp] theorem State.count_ec_refusedCommand (s : State) (f : Counters → Counters) :
    (s.count f).ec.refusedCommand = s.ec.refusedCommand := rfl
@[simp] theorem State.count_ec_statusWriteFault (s : State) (f : Counters → Counters) :
    (s.count f).ec.statusWriteFault = s.ec.statusWriteFault := rfl
@[simp] theorem State.count_ec_statusAddr (s : State) (f : Counters → Counters) :
    (s.count f).ec.statusAddr = s.ec.statusAddr := rfl
@[simp] theorem State.count_ec_parkEnable (s : State) (f : Counters → Counters) :
    (s.count f).ec.parkEnable = s.ec.parkEnable := rfl
@[simp] theorem State.count_ec_identity (s : State) (f : Counters → Counters) :
    (s.count f).ec.identity = s.ec.identity := rfl
@[simp] theorem State.count_ec_status (s : State) (f : Counters → Counters) :
    (s.count f).ec.status = s.ec.status := rfl
@[simp] theorem State.count_ec_intCause (s : State) (f : Counters → Counters) :
    (s.count f).ec.intCause = s.ec.intCause := rfl
@[simp] theorem State.count_ec_intMask (s : State) (f : Counters → Counters) :
    (s.count f).ec.intMask = s.ec.intMask := rfl
@[simp] theorem State.count_ec_lastRetired (s : State) (f : Counters → Counters) :
    (s.count f).ec.lastRetired = s.ec.lastRetired := rfl
@[simp] theorem State.count_ec_startRead (s : State) (f : Counters → Counters) :
    (s.count f).ec.startRead = s.ec.startRead := rfl
@[simp] theorem State.count_ec_tableEmpty (s : State) (f : Counters → Counters) :
    (s.count f).ec.tableEmpty = s.ec.tableEmpty := rfl
@[simp] theorem State.count_ec_chainClosed (s : State) (f : Counters → Counters) :
    (s.count f).ec.chainClosed = s.ec.chainClosed := rfl
@[simp] theorem State.count_ec_sweep (s : State) (f : Counters → Counters) :
    (s.count f).ec.sweep = s.ec.sweep := rfl

@[simp] theorem State.countFill_ec_engine (s : State) :
    (s.countFill).ec.engine = s.ec.engine := rfl
@[simp] theorem State.countFill_ec_ending (s : State) :
    (s.countFill).ec.ending = s.ec.ending := rfl
@[simp] theorem State.countFill_ec_resumeState (s : State) :
    (s.countFill).ec.resumeState = s.ec.resumeState := rfl
@[simp] theorem State.countFill_ec_stallHostFault (s : State) :
    (s.countFill).ec.stallHostFault = s.ec.stallHostFault := rfl
@[simp] theorem State.countFill_ec_stallBadBatch (s : State) :
    (s.countFill).ec.stallBadBatch = s.ec.stallBadBatch := rfl
@[simp] theorem State.countFill_ec_failureCause (s : State) :
    (s.countFill).ec.failureCause = s.ec.failureCause := rfl
@[simp] theorem State.countFill_ec_refusalCause (s : State) :
    (s.countFill).ec.refusalCause = s.ec.refusalCause := rfl
@[simp] theorem State.countFill_ec_refusedCommand (s : State) :
    (s.countFill).ec.refusedCommand = s.ec.refusedCommand := rfl
@[simp] theorem State.countFill_ec_statusWriteFault (s : State) :
    (s.countFill).ec.statusWriteFault = s.ec.statusWriteFault := rfl
@[simp] theorem State.countFill_ec_statusAddr (s : State) :
    (s.countFill).ec.statusAddr = s.ec.statusAddr := rfl
@[simp] theorem State.countFill_ec_parkEnable (s : State) :
    (s.countFill).ec.parkEnable = s.ec.parkEnable := rfl
@[simp] theorem State.countFill_ec_identity (s : State) :
    (s.countFill).ec.identity = s.ec.identity := rfl
@[simp] theorem State.countFill_ec_status (s : State) :
    (s.countFill).ec.status = s.ec.status := rfl
@[simp] theorem State.countFill_ec_intCause (s : State) :
    (s.countFill).ec.intCause = s.ec.intCause := rfl
@[simp] theorem State.countFill_ec_intMask (s : State) :
    (s.countFill).ec.intMask = s.ec.intMask := rfl
@[simp] theorem State.countFill_ec_lastRetired (s : State) :
    (s.countFill).ec.lastRetired = s.ec.lastRetired := rfl
@[simp] theorem State.countFill_ec_startRead (s : State) :
    (s.countFill).ec.startRead = s.ec.startRead := rfl
@[simp] theorem State.countFill_ec_tableEmpty (s : State) :
    (s.countFill).ec.tableEmpty = s.ec.tableEmpty := rfl
@[simp] theorem State.countFill_ec_chainClosed (s : State) :
    (s.countFill).ec.chainClosed = s.ec.chainClosed := rfl
@[simp] theorem State.countFill_ec_sweep (s : State) :
    (s.countFill).ec.sweep = s.ec.sweep := rfl

@[simp] theorem State.countCastout_ec_engine (s : State) :
    (s.countCastout).ec.engine = s.ec.engine := rfl
@[simp] theorem State.countCastout_ec_ending (s : State) :
    (s.countCastout).ec.ending = s.ec.ending := rfl
@[simp] theorem State.countCastout_ec_resumeState (s : State) :
    (s.countCastout).ec.resumeState = s.ec.resumeState := rfl
@[simp] theorem State.countCastout_ec_stallHostFault (s : State) :
    (s.countCastout).ec.stallHostFault = s.ec.stallHostFault := rfl
@[simp] theorem State.countCastout_ec_stallBadBatch (s : State) :
    (s.countCastout).ec.stallBadBatch = s.ec.stallBadBatch := rfl
@[simp] theorem State.countCastout_ec_failureCause (s : State) :
    (s.countCastout).ec.failureCause = s.ec.failureCause := rfl
@[simp] theorem State.countCastout_ec_refusalCause (s : State) :
    (s.countCastout).ec.refusalCause = s.ec.refusalCause := rfl
@[simp] theorem State.countCastout_ec_refusedCommand (s : State) :
    (s.countCastout).ec.refusedCommand = s.ec.refusedCommand := rfl
@[simp] theorem State.countCastout_ec_statusWriteFault (s : State) :
    (s.countCastout).ec.statusWriteFault = s.ec.statusWriteFault := rfl
@[simp] theorem State.countCastout_ec_statusAddr (s : State) :
    (s.countCastout).ec.statusAddr = s.ec.statusAddr := rfl
@[simp] theorem State.countCastout_ec_parkEnable (s : State) :
    (s.countCastout).ec.parkEnable = s.ec.parkEnable := rfl
@[simp] theorem State.countCastout_ec_identity (s : State) :
    (s.countCastout).ec.identity = s.ec.identity := rfl
@[simp] theorem State.countCastout_ec_status (s : State) :
    (s.countCastout).ec.status = s.ec.status := rfl
@[simp] theorem State.countCastout_ec_intCause (s : State) :
    (s.countCastout).ec.intCause = s.ec.intCause := rfl
@[simp] theorem State.countCastout_ec_intMask (s : State) :
    (s.countCastout).ec.intMask = s.ec.intMask := rfl
@[simp] theorem State.countCastout_ec_lastRetired (s : State) :
    (s.countCastout).ec.lastRetired = s.ec.lastRetired := rfl
@[simp] theorem State.countCastout_ec_startRead (s : State) :
    (s.countCastout).ec.startRead = s.ec.startRead := rfl
@[simp] theorem State.countCastout_ec_tableEmpty (s : State) :
    (s.countCastout).ec.tableEmpty = s.ec.tableEmpty := rfl
@[simp] theorem State.countCastout_ec_chainClosed (s : State) :
    (s.countCastout).ec.chainClosed = s.ec.chainClosed := rfl
@[simp] theorem State.countCastout_ec_sweep (s : State) :
    (s.countCastout).ec.sweep = s.ec.sweep := rfl

@[simp] theorem State.countThrough_ec_engine (s : State) :
    (s.countThrough).ec.engine = s.ec.engine := rfl
@[simp] theorem State.countThrough_ec_ending (s : State) :
    (s.countThrough).ec.ending = s.ec.ending := rfl
@[simp] theorem State.countThrough_ec_resumeState (s : State) :
    (s.countThrough).ec.resumeState = s.ec.resumeState := rfl
@[simp] theorem State.countThrough_ec_stallHostFault (s : State) :
    (s.countThrough).ec.stallHostFault = s.ec.stallHostFault := rfl
@[simp] theorem State.countThrough_ec_stallBadBatch (s : State) :
    (s.countThrough).ec.stallBadBatch = s.ec.stallBadBatch := rfl
@[simp] theorem State.countThrough_ec_failureCause (s : State) :
    (s.countThrough).ec.failureCause = s.ec.failureCause := rfl
@[simp] theorem State.countThrough_ec_refusalCause (s : State) :
    (s.countThrough).ec.refusalCause = s.ec.refusalCause := rfl
@[simp] theorem State.countThrough_ec_refusedCommand (s : State) :
    (s.countThrough).ec.refusedCommand = s.ec.refusedCommand := rfl
@[simp] theorem State.countThrough_ec_statusWriteFault (s : State) :
    (s.countThrough).ec.statusWriteFault = s.ec.statusWriteFault := rfl
@[simp] theorem State.countThrough_ec_statusAddr (s : State) :
    (s.countThrough).ec.statusAddr = s.ec.statusAddr := rfl
@[simp] theorem State.countThrough_ec_parkEnable (s : State) :
    (s.countThrough).ec.parkEnable = s.ec.parkEnable := rfl
@[simp] theorem State.countThrough_ec_identity (s : State) :
    (s.countThrough).ec.identity = s.ec.identity := rfl
@[simp] theorem State.countThrough_ec_status (s : State) :
    (s.countThrough).ec.status = s.ec.status := rfl
@[simp] theorem State.countThrough_ec_intCause (s : State) :
    (s.countThrough).ec.intCause = s.ec.intCause := rfl
@[simp] theorem State.countThrough_ec_intMask (s : State) :
    (s.countThrough).ec.intMask = s.ec.intMask := rfl
@[simp] theorem State.countThrough_ec_lastRetired (s : State) :
    (s.countThrough).ec.lastRetired = s.ec.lastRetired := rfl
@[simp] theorem State.countThrough_ec_startRead (s : State) :
    (s.countThrough).ec.startRead = s.ec.startRead := rfl
@[simp] theorem State.countThrough_ec_tableEmpty (s : State) :
    (s.countThrough).ec.tableEmpty = s.ec.tableEmpty := rfl
@[simp] theorem State.countThrough_ec_chainClosed (s : State) :
    (s.countThrough).ec.chainClosed = s.ec.chainClosed := rfl
@[simp] theorem State.countThrough_ec_sweep (s : State) :
    (s.countThrough).ec.sweep = s.ec.sweep := rfl

@[simp] theorem State.setStallCauses_ec_engine (s : State) (host bad : Bool) :
    (s.setStallCauses host bad).ec.engine = s.ec.engine := rfl
@[simp] theorem State.setStallCauses_ec_ending (s : State) (host bad : Bool) :
    (s.setStallCauses host bad).ec.ending = s.ec.ending := rfl
@[simp] theorem State.setStallCauses_ec_resumeState (s : State) (host bad : Bool) :
    (s.setStallCauses host bad).ec.resumeState = s.ec.resumeState := rfl
@[simp] theorem State.setStallCauses_ec_failureCause (s : State) (host bad : Bool) :
    (s.setStallCauses host bad).ec.failureCause = s.ec.failureCause := rfl
@[simp] theorem State.setStallCauses_ec_refusalCause (s : State) (host bad : Bool) :
    (s.setStallCauses host bad).ec.refusalCause = s.ec.refusalCause := rfl
@[simp] theorem State.setStallCauses_ec_refusedCommand (s : State) (host bad : Bool) :
    (s.setStallCauses host bad).ec.refusedCommand = s.ec.refusedCommand := rfl
@[simp] theorem State.setStallCauses_ec_statusWriteFault (s : State) (host bad : Bool) :
    (s.setStallCauses host bad).ec.statusWriteFault = s.ec.statusWriteFault := rfl
@[simp] theorem State.setStallCauses_ec_statusAddr (s : State) (host bad : Bool) :
    (s.setStallCauses host bad).ec.statusAddr = s.ec.statusAddr := rfl
@[simp] theorem State.setStallCauses_ec_parkEnable (s : State) (host bad : Bool) :
    (s.setStallCauses host bad).ec.parkEnable = s.ec.parkEnable := rfl
@[simp] theorem State.setStallCauses_ec_identity (s : State) (host bad : Bool) :
    (s.setStallCauses host bad).ec.identity = s.ec.identity := rfl
@[simp] theorem State.setStallCauses_ec_counters (s : State) (host bad : Bool) :
    (s.setStallCauses host bad).ec.counters = s.ec.counters := rfl
@[simp] theorem State.setStallCauses_ec_status (s : State) (host bad : Bool) :
    (s.setStallCauses host bad).ec.status = s.ec.status := rfl
@[simp] theorem State.setStallCauses_ec_intCause (s : State) (host bad : Bool) :
    (s.setStallCauses host bad).ec.intCause = s.ec.intCause := rfl
@[simp] theorem State.setStallCauses_ec_intMask (s : State) (host bad : Bool) :
    (s.setStallCauses host bad).ec.intMask = s.ec.intMask := rfl
@[simp] theorem State.setStallCauses_ec_lastRetired (s : State) (host bad : Bool) :
    (s.setStallCauses host bad).ec.lastRetired = s.ec.lastRetired := rfl
@[simp] theorem State.setStallCauses_ec_startRead (s : State) (host bad : Bool) :
    (s.setStallCauses host bad).ec.startRead = s.ec.startRead := rfl
@[simp] theorem State.setStallCauses_ec_tableEmpty (s : State) (host bad : Bool) :
    (s.setStallCauses host bad).ec.tableEmpty = s.ec.tableEmpty := rfl
@[simp] theorem State.setStallCauses_ec_chainClosed (s : State) (host bad : Bool) :
    (s.setStallCauses host bad).ec.chainClosed = s.ec.chainClosed := rfl
@[simp] theorem State.setStallCauses_ec_sweep (s : State) (host bad : Bool) :
    (s.setStallCauses host bad).ec.sweep = s.ec.sweep := rfl

@[simp] theorem State.issueStatus_ec_engine (s : State) :
    (s.issueStatus).ec.engine = s.ec.engine := rfl
@[simp] theorem State.issueStatus_ec_ending (s : State) :
    (s.issueStatus).ec.ending = s.ec.ending := rfl
@[simp] theorem State.issueStatus_ec_resumeState (s : State) :
    (s.issueStatus).ec.resumeState = s.ec.resumeState := rfl
@[simp] theorem State.issueStatus_ec_stallHostFault (s : State) :
    (s.issueStatus).ec.stallHostFault = s.ec.stallHostFault := rfl
@[simp] theorem State.issueStatus_ec_stallBadBatch (s : State) :
    (s.issueStatus).ec.stallBadBatch = s.ec.stallBadBatch := rfl
@[simp] theorem State.issueStatus_ec_failureCause (s : State) :
    (s.issueStatus).ec.failureCause = s.ec.failureCause := rfl
@[simp] theorem State.issueStatus_ec_refusalCause (s : State) :
    (s.issueStatus).ec.refusalCause = s.ec.refusalCause := rfl
@[simp] theorem State.issueStatus_ec_refusedCommand (s : State) :
    (s.issueStatus).ec.refusedCommand = s.ec.refusedCommand := rfl
@[simp] theorem State.issueStatus_ec_statusWriteFault (s : State) :
    (s.issueStatus).ec.statusWriteFault = s.ec.statusWriteFault := rfl
@[simp] theorem State.issueStatus_ec_statusAddr (s : State) :
    (s.issueStatus).ec.statusAddr = s.ec.statusAddr := rfl
@[simp] theorem State.issueStatus_ec_parkEnable (s : State) :
    (s.issueStatus).ec.parkEnable = s.ec.parkEnable := rfl
@[simp] theorem State.issueStatus_ec_identity (s : State) :
    (s.issueStatus).ec.identity = s.ec.identity := rfl
@[simp] theorem State.issueStatus_ec_counters (s : State) :
    (s.issueStatus).ec.counters = s.ec.counters := rfl
@[simp] theorem State.issueStatus_ec_intCause (s : State) :
    (s.issueStatus).ec.intCause = s.ec.intCause := rfl
@[simp] theorem State.issueStatus_ec_intMask (s : State) :
    (s.issueStatus).ec.intMask = s.ec.intMask := rfl
@[simp] theorem State.issueStatus_ec_lastRetired (s : State) :
    (s.issueStatus).ec.lastRetired = s.ec.lastRetired := rfl
@[simp] theorem State.issueStatus_ec_startRead (s : State) :
    (s.issueStatus).ec.startRead = s.ec.startRead := rfl
@[simp] theorem State.issueStatus_ec_tableEmpty (s : State) :
    (s.issueStatus).ec.tableEmpty = s.ec.tableEmpty := rfl
@[simp] theorem State.issueStatus_ec_chainClosed (s : State) :
    (s.issueStatus).ec.chainClosed = s.ec.chainClosed := rfl
@[simp] theorem State.issueStatus_ec_sweep (s : State) :
    (s.issueStatus).ec.sweep = s.ec.sweep := rfl

@[simp] theorem State.countAnswer_ec_engine (s : State) (x : Slot) :
    (s.countAnswer x).ec.engine = s.ec.engine := rfl
@[simp] theorem State.countAnswer_ec_ending (s : State) (x : Slot) :
    (s.countAnswer x).ec.ending = s.ec.ending := rfl
@[simp] theorem State.countAnswer_ec_resumeState (s : State) (x : Slot) :
    (s.countAnswer x).ec.resumeState = s.ec.resumeState := rfl
@[simp] theorem State.countAnswer_ec_stallHostFault (s : State) (x : Slot) :
    (s.countAnswer x).ec.stallHostFault = s.ec.stallHostFault := rfl
@[simp] theorem State.countAnswer_ec_stallBadBatch (s : State) (x : Slot) :
    (s.countAnswer x).ec.stallBadBatch = s.ec.stallBadBatch := rfl
@[simp] theorem State.countAnswer_ec_failureCause (s : State) (x : Slot) :
    (s.countAnswer x).ec.failureCause = s.ec.failureCause := rfl
@[simp] theorem State.countAnswer_ec_refusalCause (s : State) (x : Slot) :
    (s.countAnswer x).ec.refusalCause = s.ec.refusalCause := rfl
@[simp] theorem State.countAnswer_ec_refusedCommand (s : State) (x : Slot) :
    (s.countAnswer x).ec.refusedCommand = s.ec.refusedCommand := rfl
@[simp] theorem State.countAnswer_ec_statusWriteFault (s : State) (x : Slot) :
    (s.countAnswer x).ec.statusWriteFault = s.ec.statusWriteFault := rfl
@[simp] theorem State.countAnswer_ec_statusAddr (s : State) (x : Slot) :
    (s.countAnswer x).ec.statusAddr = s.ec.statusAddr := rfl
@[simp] theorem State.countAnswer_ec_parkEnable (s : State) (x : Slot) :
    (s.countAnswer x).ec.parkEnable = s.ec.parkEnable := rfl
@[simp] theorem State.countAnswer_ec_identity (s : State) (x : Slot) :
    (s.countAnswer x).ec.identity = s.ec.identity := rfl
@[simp] theorem State.countAnswer_ec_status (s : State) (x : Slot) :
    (s.countAnswer x).ec.status = s.ec.status := rfl
@[simp] theorem State.countAnswer_ec_intCause (s : State) (x : Slot) :
    (s.countAnswer x).ec.intCause = s.ec.intCause := rfl
@[simp] theorem State.countAnswer_ec_intMask (s : State) (x : Slot) :
    (s.countAnswer x).ec.intMask = s.ec.intMask := rfl
@[simp] theorem State.countAnswer_ec_lastRetired (s : State) (x : Slot) :
    (s.countAnswer x).ec.lastRetired = s.ec.lastRetired := rfl
@[simp] theorem State.countAnswer_ec_startRead (s : State) (x : Slot) :
    (s.countAnswer x).ec.startRead = s.ec.startRead := rfl
@[simp] theorem State.countAnswer_ec_tableEmpty (s : State) (x : Slot) :
    (s.countAnswer x).ec.tableEmpty = s.ec.tableEmpty := rfl
@[simp] theorem State.countAnswer_ec_chainClosed (s : State) (x : Slot) :
    (s.countAnswer x).ec.chainClosed = s.ec.chainClosed := rfl
@[simp] theorem State.countAnswer_ec_sweep (s : State) (x : Slot) :
    (s.countAnswer x).ec.sweep = s.ec.sweep := rfl

@[simp] theorem State.setAttached_ec_engine (s : State) :
    (s.setAttached).ec.engine = s.ec.engine := rfl
@[simp] theorem State.setAttached_ec_ending (s : State) :
    (s.setAttached).ec.ending = s.ec.ending := rfl
@[simp] theorem State.setAttached_ec_resumeState (s : State) :
    (s.setAttached).ec.resumeState = s.ec.resumeState := rfl
@[simp] theorem State.setAttached_ec_stallHostFault (s : State) :
    (s.setAttached).ec.stallHostFault = s.ec.stallHostFault := rfl
@[simp] theorem State.setAttached_ec_stallBadBatch (s : State) :
    (s.setAttached).ec.stallBadBatch = s.ec.stallBadBatch := rfl
@[simp] theorem State.setAttached_ec_failureCause (s : State) :
    (s.setAttached).ec.failureCause = s.ec.failureCause := rfl
@[simp] theorem State.setAttached_ec_refusalCause (s : State) :
    (s.setAttached).ec.refusalCause = s.ec.refusalCause := rfl
@[simp] theorem State.setAttached_ec_refusedCommand (s : State) :
    (s.setAttached).ec.refusedCommand = s.ec.refusedCommand := rfl
@[simp] theorem State.setAttached_ec_statusWriteFault (s : State) :
    (s.setAttached).ec.statusWriteFault = s.ec.statusWriteFault := rfl
@[simp] theorem State.setAttached_ec_statusAddr (s : State) :
    (s.setAttached).ec.statusAddr = s.ec.statusAddr := rfl
@[simp] theorem State.setAttached_ec_parkEnable (s : State) :
    (s.setAttached).ec.parkEnable = s.ec.parkEnable := rfl
@[simp] theorem State.setAttached_ec_identity (s : State) :
    (s.setAttached).ec.identity = s.ec.identity := rfl
@[simp] theorem State.setAttached_ec_counters (s : State) :
    (s.setAttached).ec.counters = s.ec.counters := rfl
@[simp] theorem State.setAttached_ec_intMask (s : State) :
    (s.setAttached).ec.intMask = s.ec.intMask := rfl
@[simp] theorem State.setAttached_ec_lastRetired (s : State) :
    (s.setAttached).ec.lastRetired = s.ec.lastRetired := rfl
@[simp] theorem State.setAttached_ec_startRead (s : State) :
    (s.setAttached).ec.startRead = s.ec.startRead := rfl
@[simp] theorem State.setAttached_ec_tableEmpty (s : State) :
    (s.setAttached).ec.tableEmpty = s.ec.tableEmpty := rfl
@[simp] theorem State.setAttached_ec_chainClosed (s : State) :
    (s.setAttached).ec.chainClosed = s.ec.chainClosed := rfl
@[simp] theorem State.setAttached_ec_sweep (s : State) :
    (s.setAttached).ec.sweep = s.ec.sweep := rfl

@[simp] theorem State.statusWritten_ec_engine (s : State) :
    (s.statusWritten).ec.engine = s.ec.engine := rfl
@[simp] theorem State.statusWritten_ec_ending (s : State) :
    (s.statusWritten).ec.ending = s.ec.ending := rfl
@[simp] theorem State.statusWritten_ec_resumeState (s : State) :
    (s.statusWritten).ec.resumeState = s.ec.resumeState := rfl
@[simp] theorem State.statusWritten_ec_stallHostFault (s : State) :
    (s.statusWritten).ec.stallHostFault = s.ec.stallHostFault := rfl
@[simp] theorem State.statusWritten_ec_stallBadBatch (s : State) :
    (s.statusWritten).ec.stallBadBatch = s.ec.stallBadBatch := rfl
@[simp] theorem State.statusWritten_ec_failureCause (s : State) :
    (s.statusWritten).ec.failureCause = s.ec.failureCause := rfl
@[simp] theorem State.statusWritten_ec_refusalCause (s : State) :
    (s.statusWritten).ec.refusalCause = s.ec.refusalCause := rfl
@[simp] theorem State.statusWritten_ec_refusedCommand (s : State) :
    (s.statusWritten).ec.refusedCommand = s.ec.refusedCommand := rfl
@[simp] theorem State.statusWritten_ec_statusAddr (s : State) :
    (s.statusWritten).ec.statusAddr = s.ec.statusAddr := rfl
@[simp] theorem State.statusWritten_ec_parkEnable (s : State) :
    (s.statusWritten).ec.parkEnable = s.ec.parkEnable := rfl
@[simp] theorem State.statusWritten_ec_identity (s : State) :
    (s.statusWritten).ec.identity = s.ec.identity := rfl
@[simp] theorem State.statusWritten_ec_counters (s : State) :
    (s.statusWritten).ec.counters = s.ec.counters := rfl
@[simp] theorem State.statusWritten_ec_intMask (s : State) :
    (s.statusWritten).ec.intMask = s.ec.intMask := rfl
@[simp] theorem State.statusWritten_ec_lastRetired (s : State) :
    (s.statusWritten).ec.lastRetired = s.ec.lastRetired := rfl
@[simp] theorem State.statusWritten_ec_startRead (s : State) :
    (s.statusWritten).ec.startRead = s.ec.startRead := rfl
@[simp] theorem State.statusWritten_ec_tableEmpty (s : State) :
    (s.statusWritten).ec.tableEmpty = s.ec.tableEmpty := rfl
@[simp] theorem State.statusWritten_ec_chainClosed (s : State) :
    (s.statusWritten).ec.chainClosed = s.ec.chainClosed := rfl
@[simp] theorem State.statusWritten_ec_sweep (s : State) :
    (s.statusWritten).ec.sweep = s.ec.sweep := rfl

@[simp] theorem State.statusEnded_ec_engine (s : State) :
    (s.statusEnded).ec.engine = s.ec.engine := rfl
@[simp] theorem State.statusEnded_ec_ending (s : State) :
    (s.statusEnded).ec.ending = s.ec.ending := rfl
@[simp] theorem State.statusEnded_ec_resumeState (s : State) :
    (s.statusEnded).ec.resumeState = s.ec.resumeState := rfl
@[simp] theorem State.statusEnded_ec_stallHostFault (s : State) :
    (s.statusEnded).ec.stallHostFault = s.ec.stallHostFault := rfl
@[simp] theorem State.statusEnded_ec_stallBadBatch (s : State) :
    (s.statusEnded).ec.stallBadBatch = s.ec.stallBadBatch := rfl
@[simp] theorem State.statusEnded_ec_failureCause (s : State) :
    (s.statusEnded).ec.failureCause = s.ec.failureCause := rfl
@[simp] theorem State.statusEnded_ec_refusalCause (s : State) :
    (s.statusEnded).ec.refusalCause = s.ec.refusalCause := rfl
@[simp] theorem State.statusEnded_ec_refusedCommand (s : State) :
    (s.statusEnded).ec.refusedCommand = s.ec.refusedCommand := rfl
@[simp] theorem State.statusEnded_ec_statusWriteFault (s : State) :
    (s.statusEnded).ec.statusWriteFault = s.ec.statusWriteFault := rfl
@[simp] theorem State.statusEnded_ec_statusAddr (s : State) :
    (s.statusEnded).ec.statusAddr = s.ec.statusAddr := rfl
@[simp] theorem State.statusEnded_ec_parkEnable (s : State) :
    (s.statusEnded).ec.parkEnable = s.ec.parkEnable := rfl
@[simp] theorem State.statusEnded_ec_identity (s : State) :
    (s.statusEnded).ec.identity = s.ec.identity := rfl
@[simp] theorem State.statusEnded_ec_counters (s : State) :
    (s.statusEnded).ec.counters = s.ec.counters := rfl
@[simp] theorem State.statusEnded_ec_intCause (s : State) :
    (s.statusEnded).ec.intCause = s.ec.intCause := rfl
@[simp] theorem State.statusEnded_ec_intMask (s : State) :
    (s.statusEnded).ec.intMask = s.ec.intMask := rfl
@[simp] theorem State.statusEnded_ec_lastRetired (s : State) :
    (s.statusEnded).ec.lastRetired = s.ec.lastRetired := rfl
@[simp] theorem State.statusEnded_ec_startRead (s : State) :
    (s.statusEnded).ec.startRead = s.ec.startRead := rfl
@[simp] theorem State.statusEnded_ec_tableEmpty (s : State) :
    (s.statusEnded).ec.tableEmpty = s.ec.tableEmpty := rfl
@[simp] theorem State.statusEnded_ec_chainClosed (s : State) :
    (s.statusEnded).ec.chainClosed = s.ec.chainClosed := rfl
@[simp] theorem State.statusEnded_ec_sweep (s : State) :
    (s.statusEnded).ec.sweep = s.ec.sweep := rfl

@[simp] theorem State.takeProfile_ec_engine (s : State) (p : TableProfile) :
    (s.takeProfile p).ec.engine = s.ec.engine := rfl
@[simp] theorem State.takeProfile_ec_ending (s : State) (p : TableProfile) :
    (s.takeProfile p).ec.ending = s.ec.ending := rfl
@[simp] theorem State.takeProfile_ec_resumeState (s : State) (p : TableProfile) :
    (s.takeProfile p).ec.resumeState = s.ec.resumeState := rfl
@[simp] theorem State.takeProfile_ec_stallHostFault (s : State) (p : TableProfile) :
    (s.takeProfile p).ec.stallHostFault = s.ec.stallHostFault := rfl
@[simp] theorem State.takeProfile_ec_stallBadBatch (s : State) (p : TableProfile) :
    (s.takeProfile p).ec.stallBadBatch = s.ec.stallBadBatch := rfl
@[simp] theorem State.takeProfile_ec_failureCause (s : State) (p : TableProfile) :
    (s.takeProfile p).ec.failureCause = s.ec.failureCause := rfl
@[simp] theorem State.takeProfile_ec_refusedCommand (s : State) (p : TableProfile) :
    (s.takeProfile p).ec.refusedCommand = s.ec.refusedCommand := rfl
@[simp] theorem State.takeProfile_ec_statusWriteFault (s : State) (p : TableProfile) :
    (s.takeProfile p).ec.statusWriteFault = s.ec.statusWriteFault := rfl
@[simp] theorem State.takeProfile_ec_identity (s : State) (p : TableProfile) :
    (s.takeProfile p).ec.identity = s.ec.identity := rfl
@[simp] theorem State.takeProfile_ec_counters (s : State) (p : TableProfile) :
    (s.takeProfile p).ec.counters = s.ec.counters := rfl
@[simp] theorem State.takeProfile_ec_status (s : State) (p : TableProfile) :
    (s.takeProfile p).ec.status = s.ec.status := rfl
@[simp] theorem State.takeProfile_ec_intCause (s : State) (p : TableProfile) :
    (s.takeProfile p).ec.intCause = s.ec.intCause := rfl
@[simp] theorem State.takeProfile_ec_intMask (s : State) (p : TableProfile) :
    (s.takeProfile p).ec.intMask = s.ec.intMask := rfl
@[simp] theorem State.takeProfile_ec_lastRetired (s : State) (p : TableProfile) :
    (s.takeProfile p).ec.lastRetired = s.ec.lastRetired := rfl
@[simp] theorem State.takeProfile_ec_startRead (s : State) (p : TableProfile) :
    (s.takeProfile p).ec.startRead = s.ec.startRead := rfl
@[simp] theorem State.takeProfile_ec_tableEmpty (s : State) (p : TableProfile) :
    (s.takeProfile p).ec.tableEmpty = s.ec.tableEmpty := rfl
@[simp] theorem State.takeProfile_ec_chainClosed (s : State) (p : TableProfile) :
    (s.takeProfile p).ec.chainClosed = s.ec.chainClosed := rfl
@[simp] theorem State.takeProfile_ec_sweep (s : State) (p : TableProfile) :
    (s.takeProfile p).ec.sweep = s.ec.sweep := rfl

@[simp] theorem State.setSlot_rt_age (s : State) (k : SlotId) (x : Slot) :
    (s.setSlot k x).rt.age = s.rt.age := rfl
@[simp] theorem State.setSlot_rt_hold (s : State) (k : SlotId) (x : Slot) :
    (s.setSlot k x).rt.hold = s.rt.hold := rfl
@[simp] theorem State.setSlot_rt_faulted (s : State) (k : SlotId) (x : Slot) :
    (s.setSlot k x).rt.faulted = s.rt.faulted := rfl
@[simp] theorem State.setSlot_rt_unreported (s : State) (k : SlotId) (x : Slot) :
    (s.setSlot k x).rt.unreported = s.rt.unreported := rfl

@[simp] theorem State.modifySlot_rt_age (s : State) (k : SlotId) (f : Slot → Slot) :
    (s.modifySlot k f).rt.age = s.rt.age := rfl
@[simp] theorem State.modifySlot_rt_hold (s : State) (k : SlotId) (f : Slot → Slot) :
    (s.modifySlot k f).rt.hold = s.rt.hold := rfl
@[simp] theorem State.modifySlot_rt_faulted (s : State) (k : SlotId) (f : Slot → Slot) :
    (s.modifySlot k f).rt.faulted = s.rt.faulted := rfl
@[simp] theorem State.modifySlot_rt_unreported (s : State) (k : SlotId) (f : Slot → Slot) :
    (s.modifySlot k f).rt.unreported = s.rt.unreported := rfl

@[simp] theorem State.issueResult_rt_age (s : State) (k : SlotId) :
    (s.issueResult k).rt.age = s.rt.age := rfl
@[simp] theorem State.issueResult_rt_hold (s : State) (k : SlotId) :
    (s.issueResult k).rt.hold = s.rt.hold := rfl
@[simp] theorem State.issueResult_rt_faulted (s : State) (k : SlotId) :
    (s.issueResult k).rt.faulted = s.rt.faulted := rfl
@[simp] theorem State.issueResult_rt_unreported (s : State) (k : SlotId) :
    (s.issueResult k).rt.unreported = s.rt.unreported := rfl

@[simp] theorem State.discardSlot_rt_age (s : State) (k : SlotId) :
    (s.discardSlot k).rt.age = s.rt.age := rfl
@[simp] theorem State.discardSlot_rt_hold (s : State) (k : SlotId) :
    (s.discardSlot k).rt.hold = s.rt.hold := rfl
@[simp] theorem State.discardSlot_rt_faulted (s : State) (k : SlotId) :
    (s.discardSlot k).rt.faulted = s.rt.faulted := rfl
@[simp] theorem State.discardSlot_rt_unreported (s : State) (k : SlotId) :
    (s.discardSlot k).rt.unreported = s.rt.unreported := rfl

@[simp] theorem State.setVisiting_rt_age (s : State) (k : SlotId) (r : Request) :
    (s.setVisiting k r).rt.age = s.rt.age := rfl
@[simp] theorem State.setVisiting_rt_hold (s : State) (k : SlotId) (r : Request) :
    (s.setVisiting k r).rt.hold = s.rt.hold := rfl
@[simp] theorem State.setVisiting_rt_faulted (s : State) (k : SlotId) (r : Request) :
    (s.setVisiting k r).rt.faulted = s.rt.faulted := rfl
@[simp] theorem State.setVisiting_rt_unreported (s : State) (k : SlotId) (r : Request) :
    (s.setVisiting k r).rt.unreported = s.rt.unreported := rfl

@[simp] theorem State.loadArrived_rt_age (s : State) (k : SlotId) (d : Block128) :
    (s.loadArrived k d).rt.age = s.rt.age := rfl
@[simp] theorem State.loadArrived_rt_hold (s : State) (k : SlotId) (d : Block128) :
    (s.loadArrived k d).rt.hold = s.rt.hold := rfl
@[simp] theorem State.loadArrived_rt_faulted (s : State) (k : SlotId) (d : Block128) :
    (s.loadArrived k d).rt.faulted = s.rt.faulted := rfl
@[simp] theorem State.loadArrived_rt_unreported (s : State) (k : SlotId) (d : Block128) :
    (s.loadArrived k d).rt.unreported = s.rt.unreported := rfl

@[simp] theorem State.putSet_bc_policy (s : State) (i : SetId) (c : CacheSet) :
    (s.putSet i c).bc.policy = s.bc.policy := rfl
@[simp] theorem State.putSet_bc_poison (s : State) (i : SetId) (c : CacheSet) :
    (s.putSet i c).bc.poison = s.bc.poison := rfl
@[simp] theorem State.putSet_bc_overflow (s : State) (i : SetId) (c : CacheSet) :
    (s.putSet i c).bc.overflow = s.bc.overflow := rfl
@[simp] theorem State.putSet_bc_flush (s : State) (i : SetId) (c : CacheSet) :
    (s.putSet i c).bc.flush = s.bc.flush := rfl

@[simp] theorem State.setLine_bc_policy (s : State) (i : SetId) (w : Way) (l : Line) :
    (s.setLine i w l).bc.policy = s.bc.policy := rfl
@[simp] theorem State.setLine_bc_poison (s : State) (i : SetId) (w : Way) (l : Line) :
    (s.setLine i w l).bc.poison = s.bc.poison := rfl
@[simp] theorem State.setLine_bc_overflow (s : State) (i : SetId) (w : Way) (l : Line) :
    (s.setLine i w l).bc.overflow = s.bc.overflow := rfl
@[simp] theorem State.setLine_bc_flush (s : State) (i : SetId) (w : Way) (l : Line) :
    (s.setLine i w l).bc.flush = s.bc.flush := rfl

@[simp] theorem State.modifyLine_bc_policy (s : State) (i : SetId) (w : Way) (f : Line → Line) :
    (s.modifyLine i w f).bc.policy = s.bc.policy := rfl
@[simp] theorem State.modifyLine_bc_poison (s : State) (i : SetId) (w : Way) (f : Line → Line) :
    (s.modifyLine i w f).bc.poison = s.bc.poison := rfl
@[simp] theorem State.modifyLine_bc_overflow (s : State) (i : SetId) (w : Way) (f : Line → Line) :
    (s.modifyLine i w f).bc.overflow = s.bc.overflow := rfl
@[simp] theorem State.modifyLine_bc_flush (s : State) (i : SetId) (w : Way) (f : Line → Line) :
    (s.modifyLine i w f).bc.flush = s.bc.flush := rfl

@[simp] theorem State.touch_bc_policy (s : State) (i : SetId) (w : Way) :
    (s.touch i w).bc.policy = s.bc.policy := rfl
@[simp] theorem State.touch_bc_poison (s : State) (i : SetId) (w : Way) :
    (s.touch i w).bc.poison = s.bc.poison := rfl
@[simp] theorem State.touch_bc_overflow (s : State) (i : SetId) (w : Way) :
    (s.touch i w).bc.overflow = s.bc.overflow := rfl
@[simp] theorem State.touch_bc_flush (s : State) (i : SetId) (w : Way) :
    (s.touch i w).bc.flush = s.bc.flush := rfl

@[simp] theorem State.setWaiting_bc_policy (s : State) (i : SetId) (l : List SlotId) :
    (s.setWaiting i l).bc.policy = s.bc.policy := rfl
@[simp] theorem State.setWaiting_bc_poison (s : State) (i : SetId) (l : List SlotId) :
    (s.setWaiting i l).bc.poison = s.bc.poison := rfl
@[simp] theorem State.setWaiting_bc_overflow (s : State) (i : SetId) (l : List SlotId) :
    (s.setWaiting i l).bc.overflow = s.bc.overflow := rfl
@[simp] theorem State.setWaiting_bc_flush (s : State) (i : SetId) (l : List SlotId) :
    (s.setWaiting i l).bc.flush = s.bc.flush := rfl

@[simp] theorem State.setBank_mc_profile (s : State) (b : BankId) (x : Bank) :
    (s.setBank b x).mc.profile = s.mc.profile := rfl
@[simp] theorem State.setBank_mc_rows (s : State) (b : BankId) (x : Bank) :
    (s.setBank b x).mc.rows = s.mc.rows := rfl
@[simp] theorem State.setBank_mc_laneFaults (s : State) (b : BankId) (x : Bank) :
    (s.setBank b x).mc.laneFaults = s.mc.laneFaults := rfl
@[simp] theorem State.setBank_mc_idleCandidates (s : State) (b : BankId) (x : Bank) :
    (s.setBank b x).mc.idleCandidates = s.mc.idleCandidates := rfl
@[simp] theorem State.setBank_mc_waits (s : State) (b : BankId) (x : Bank) :
    (s.setBank b x).mc.waits = s.mc.waits := rfl
@[simp] theorem State.setBank_mc_nextAge (s : State) (b : BankId) (x : Bank) :
    (s.setBank b x).mc.nextAge = s.mc.nextAge := rfl
@[simp] theorem State.setBank_mc_reads (s : State) (b : BankId) (x : Bank) :
    (s.setBank b x).mc.reads = s.mc.reads := rfl
@[simp] theorem State.setBank_mc_near (s : State) (b : BankId) (x : Bank) :
    (s.setBank b x).mc.near = s.mc.near := rfl
@[simp] theorem State.setBank_mc_far (s : State) (b : BankId) (x : Bank) :
    (s.setBank b x).mc.far = s.mc.far := rfl
@[simp] theorem State.setBank_mc_turnGap (s : State) (b : BankId) (x : Bank) :
    (s.setBank b x).mc.turnGap = s.mc.turnGap := rfl
@[simp] theorem State.setBank_mc_refreshWait (s : State) (b : BankId) (x : Bank) :
    (s.setBank b x).mc.refreshWait = s.mc.refreshWait := rfl
@[simp] theorem State.setBank_mc_refreshPeriod (s : State) (b : BankId) (x : Bank) :
    (s.setBank b x).mc.refreshPeriod = s.mc.refreshPeriod := rfl
@[simp] theorem State.setBank_mc_refreshRunning (s : State) (b : BankId) (x : Bank) :
    (s.setBank b x).mc.refreshRunning = s.mc.refreshRunning := rfl
@[simp] theorem State.setBank_mc_owed (s : State) (b : BankId) (x : Bank) :
    (s.setBank b x).mc.owed = s.mc.owed := rfl
@[simp] theorem State.setBank_mc_committed (s : State) (b : BankId) (x : Bank) :
    (s.setBank b x).mc.committed = s.mc.committed := rfl
@[simp] theorem State.setBank_mc_accepting (s : State) (b : BankId) (x : Bank) :
    (s.setBank b x).mc.accepting = s.mc.accepting := rfl
@[simp] theorem State.setBank_mc_sequencer (s : State) (b : BankId) (x : Bank) :
    (s.setBank b x).mc.sequencer = s.mc.sequencer := rfl
@[simp] theorem State.setBank_mc_resetHeld (s : State) (b : BankId) (x : Bank) :
    (s.setBank b x).mc.resetHeld = s.mc.resetHeld := rfl
@[simp] theorem State.setBank_mc_resetHold (s : State) (b : BankId) (x : Bank) :
    (s.setBank b x).mc.resetHold = s.mc.resetHold := rfl
@[simp] theorem State.setBank_mc_modeGap (s : State) (b : BankId) (x : Bank) :
    (s.setBank b x).mc.modeGap = s.mc.modeGap := rfl
@[simp] theorem State.setBank_mc_port (s : State) (b : BankId) (x : Bank) :
    (s.setBank b x).mc.port = s.mc.port := rfl

@[simp] theorem State.modifyBank_mc_profile (s : State) (b : BankId) (f : Bank → Bank) :
    (s.modifyBank b f).mc.profile = s.mc.profile := rfl
@[simp] theorem State.modifyBank_mc_rows (s : State) (b : BankId) (f : Bank → Bank) :
    (s.modifyBank b f).mc.rows = s.mc.rows := rfl
@[simp] theorem State.modifyBank_mc_laneFaults (s : State) (b : BankId) (f : Bank → Bank) :
    (s.modifyBank b f).mc.laneFaults = s.mc.laneFaults := rfl
@[simp] theorem State.modifyBank_mc_idleCandidates (s : State) (b : BankId) (f : Bank → Bank) :
    (s.modifyBank b f).mc.idleCandidates = s.mc.idleCandidates := rfl
@[simp] theorem State.modifyBank_mc_waits (s : State) (b : BankId) (f : Bank → Bank) :
    (s.modifyBank b f).mc.waits = s.mc.waits := rfl
@[simp] theorem State.modifyBank_mc_nextAge (s : State) (b : BankId) (f : Bank → Bank) :
    (s.modifyBank b f).mc.nextAge = s.mc.nextAge := rfl
@[simp] theorem State.modifyBank_mc_reads (s : State) (b : BankId) (f : Bank → Bank) :
    (s.modifyBank b f).mc.reads = s.mc.reads := rfl
@[simp] theorem State.modifyBank_mc_near (s : State) (b : BankId) (f : Bank → Bank) :
    (s.modifyBank b f).mc.near = s.mc.near := rfl
@[simp] theorem State.modifyBank_mc_far (s : State) (b : BankId) (f : Bank → Bank) :
    (s.modifyBank b f).mc.far = s.mc.far := rfl
@[simp] theorem State.modifyBank_mc_turnGap (s : State) (b : BankId) (f : Bank → Bank) :
    (s.modifyBank b f).mc.turnGap = s.mc.turnGap := rfl
@[simp] theorem State.modifyBank_mc_refreshWait (s : State) (b : BankId) (f : Bank → Bank) :
    (s.modifyBank b f).mc.refreshWait = s.mc.refreshWait := rfl
@[simp] theorem State.modifyBank_mc_refreshPeriod (s : State) (b : BankId) (f : Bank → Bank) :
    (s.modifyBank b f).mc.refreshPeriod = s.mc.refreshPeriod := rfl
@[simp] theorem State.modifyBank_mc_refreshRunning (s : State) (b : BankId) (f : Bank → Bank) :
    (s.modifyBank b f).mc.refreshRunning = s.mc.refreshRunning := rfl
@[simp] theorem State.modifyBank_mc_owed (s : State) (b : BankId) (f : Bank → Bank) :
    (s.modifyBank b f).mc.owed = s.mc.owed := rfl
@[simp] theorem State.modifyBank_mc_committed (s : State) (b : BankId) (f : Bank → Bank) :
    (s.modifyBank b f).mc.committed = s.mc.committed := rfl
@[simp] theorem State.modifyBank_mc_accepting (s : State) (b : BankId) (f : Bank → Bank) :
    (s.modifyBank b f).mc.accepting = s.mc.accepting := rfl
@[simp] theorem State.modifyBank_mc_sequencer (s : State) (b : BankId) (f : Bank → Bank) :
    (s.modifyBank b f).mc.sequencer = s.mc.sequencer := rfl
@[simp] theorem State.modifyBank_mc_resetHeld (s : State) (b : BankId) (f : Bank → Bank) :
    (s.modifyBank b f).mc.resetHeld = s.mc.resetHeld := rfl
@[simp] theorem State.modifyBank_mc_resetHold (s : State) (b : BankId) (f : Bank → Bank) :
    (s.modifyBank b f).mc.resetHold = s.mc.resetHold := rfl
@[simp] theorem State.modifyBank_mc_modeGap (s : State) (b : BankId) (f : Bank → Bank) :
    (s.modifyBank b f).mc.modeGap = s.mc.modeGap := rfl
@[simp] theorem State.modifyBank_mc_port (s : State) (b : BankId) (f : Bank → Bank) :
    (s.modifyBank b f).mc.port = s.mc.port := rfl

@[simp] theorem State.wakeBank_mc_profile (s : State) (b : BankId) :
    (s.wakeBank b).mc.profile = s.mc.profile := rfl
@[simp] theorem State.wakeBank_mc_rows (s : State) (b : BankId) :
    (s.wakeBank b).mc.rows = s.mc.rows := rfl
@[simp] theorem State.wakeBank_mc_laneFaults (s : State) (b : BankId) :
    (s.wakeBank b).mc.laneFaults = s.mc.laneFaults := rfl
@[simp] theorem State.wakeBank_mc_waits (s : State) (b : BankId) :
    (s.wakeBank b).mc.waits = s.mc.waits := rfl
@[simp] theorem State.wakeBank_mc_nextAge (s : State) (b : BankId) :
    (s.wakeBank b).mc.nextAge = s.mc.nextAge := rfl
@[simp] theorem State.wakeBank_mc_reads (s : State) (b : BankId) :
    (s.wakeBank b).mc.reads = s.mc.reads := rfl
@[simp] theorem State.wakeBank_mc_near (s : State) (b : BankId) :
    (s.wakeBank b).mc.near = s.mc.near := rfl
@[simp] theorem State.wakeBank_mc_far (s : State) (b : BankId) :
    (s.wakeBank b).mc.far = s.mc.far := rfl
@[simp] theorem State.wakeBank_mc_turnGap (s : State) (b : BankId) :
    (s.wakeBank b).mc.turnGap = s.mc.turnGap := rfl
@[simp] theorem State.wakeBank_mc_refreshWait (s : State) (b : BankId) :
    (s.wakeBank b).mc.refreshWait = s.mc.refreshWait := rfl
@[simp] theorem State.wakeBank_mc_refreshPeriod (s : State) (b : BankId) :
    (s.wakeBank b).mc.refreshPeriod = s.mc.refreshPeriod := rfl
@[simp] theorem State.wakeBank_mc_refreshRunning (s : State) (b : BankId) :
    (s.wakeBank b).mc.refreshRunning = s.mc.refreshRunning := rfl
@[simp] theorem State.wakeBank_mc_owed (s : State) (b : BankId) :
    (s.wakeBank b).mc.owed = s.mc.owed := rfl
@[simp] theorem State.wakeBank_mc_committed (s : State) (b : BankId) :
    (s.wakeBank b).mc.committed = s.mc.committed := rfl
@[simp] theorem State.wakeBank_mc_accepting (s : State) (b : BankId) :
    (s.wakeBank b).mc.accepting = s.mc.accepting := rfl
@[simp] theorem State.wakeBank_mc_sequencer (s : State) (b : BankId) :
    (s.wakeBank b).mc.sequencer = s.mc.sequencer := rfl
@[simp] theorem State.wakeBank_mc_resetHeld (s : State) (b : BankId) :
    (s.wakeBank b).mc.resetHeld = s.mc.resetHeld := rfl
@[simp] theorem State.wakeBank_mc_resetHold (s : State) (b : BankId) :
    (s.wakeBank b).mc.resetHold = s.mc.resetHold := rfl
@[simp] theorem State.wakeBank_mc_modeGap (s : State) (b : BankId) :
    (s.wakeBank b).mc.modeGap = s.mc.modeGap := rfl
@[simp] theorem State.wakeBank_mc_port (s : State) (b : BankId) :
    (s.wakeBank b).mc.port = s.mc.port := rfl

@[simp] theorem State.closeBank_mc_profile (s : State) (b : BankId) :
    (s.closeBank b).mc.profile = s.mc.profile := rfl
@[simp] theorem State.closeBank_mc_rows (s : State) (b : BankId) :
    (s.closeBank b).mc.rows = s.mc.rows := rfl
@[simp] theorem State.closeBank_mc_laneFaults (s : State) (b : BankId) :
    (s.closeBank b).mc.laneFaults = s.mc.laneFaults := rfl
@[simp] theorem State.closeBank_mc_waits (s : State) (b : BankId) :
    (s.closeBank b).mc.waits = s.mc.waits := rfl
@[simp] theorem State.closeBank_mc_nextAge (s : State) (b : BankId) :
    (s.closeBank b).mc.nextAge = s.mc.nextAge := rfl
@[simp] theorem State.closeBank_mc_reads (s : State) (b : BankId) :
    (s.closeBank b).mc.reads = s.mc.reads := rfl
@[simp] theorem State.closeBank_mc_near (s : State) (b : BankId) :
    (s.closeBank b).mc.near = s.mc.near := rfl
@[simp] theorem State.closeBank_mc_far (s : State) (b : BankId) :
    (s.closeBank b).mc.far = s.mc.far := rfl
@[simp] theorem State.closeBank_mc_turnGap (s : State) (b : BankId) :
    (s.closeBank b).mc.turnGap = s.mc.turnGap := rfl
@[simp] theorem State.closeBank_mc_refreshWait (s : State) (b : BankId) :
    (s.closeBank b).mc.refreshWait = s.mc.refreshWait := rfl
@[simp] theorem State.closeBank_mc_refreshPeriod (s : State) (b : BankId) :
    (s.closeBank b).mc.refreshPeriod = s.mc.refreshPeriod := rfl
@[simp] theorem State.closeBank_mc_refreshRunning (s : State) (b : BankId) :
    (s.closeBank b).mc.refreshRunning = s.mc.refreshRunning := rfl
@[simp] theorem State.closeBank_mc_owed (s : State) (b : BankId) :
    (s.closeBank b).mc.owed = s.mc.owed := rfl
@[simp] theorem State.closeBank_mc_committed (s : State) (b : BankId) :
    (s.closeBank b).mc.committed = s.mc.committed := rfl
@[simp] theorem State.closeBank_mc_accepting (s : State) (b : BankId) :
    (s.closeBank b).mc.accepting = s.mc.accepting := rfl
@[simp] theorem State.closeBank_mc_sequencer (s : State) (b : BankId) :
    (s.closeBank b).mc.sequencer = s.mc.sequencer := rfl
@[simp] theorem State.closeBank_mc_resetHeld (s : State) (b : BankId) :
    (s.closeBank b).mc.resetHeld = s.mc.resetHeld := rfl
@[simp] theorem State.closeBank_mc_resetHold (s : State) (b : BankId) :
    (s.closeBank b).mc.resetHold = s.mc.resetHold := rfl
@[simp] theorem State.closeBank_mc_modeGap (s : State) (b : BankId) :
    (s.closeBank b).mc.modeGap = s.mc.modeGap := rfl
@[simp] theorem State.closeBank_mc_port (s : State) (b : BankId) :
    (s.closeBank b).mc.port = s.mc.port := rfl

@[simp] theorem State.openBank_mc_profile (s : State) (b : BankId) (row : Nat) :
    (s.openBank b row).mc.profile = s.mc.profile := rfl
@[simp] theorem State.openBank_mc_rows (s : State) (b : BankId) (row : Nat) :
    (s.openBank b row).mc.rows = s.mc.rows := rfl
@[simp] theorem State.openBank_mc_laneFaults (s : State) (b : BankId) (row : Nat) :
    (s.openBank b row).mc.laneFaults = s.mc.laneFaults := rfl
@[simp] theorem State.openBank_mc_idleCandidates (s : State) (b : BankId) (row : Nat) :
    (s.openBank b row).mc.idleCandidates = s.mc.idleCandidates := rfl
@[simp] theorem State.openBank_mc_waits (s : State) (b : BankId) (row : Nat) :
    (s.openBank b row).mc.waits = s.mc.waits := rfl
@[simp] theorem State.openBank_mc_nextAge (s : State) (b : BankId) (row : Nat) :
    (s.openBank b row).mc.nextAge = s.mc.nextAge := rfl
@[simp] theorem State.openBank_mc_reads (s : State) (b : BankId) (row : Nat) :
    (s.openBank b row).mc.reads = s.mc.reads := rfl
@[simp] theorem State.openBank_mc_near (s : State) (b : BankId) (row : Nat) :
    (s.openBank b row).mc.near = s.mc.near := rfl
@[simp] theorem State.openBank_mc_far (s : State) (b : BankId) (row : Nat) :
    (s.openBank b row).mc.far = s.mc.far := rfl
@[simp] theorem State.openBank_mc_turnGap (s : State) (b : BankId) (row : Nat) :
    (s.openBank b row).mc.turnGap = s.mc.turnGap := rfl
@[simp] theorem State.openBank_mc_refreshWait (s : State) (b : BankId) (row : Nat) :
    (s.openBank b row).mc.refreshWait = s.mc.refreshWait := rfl
@[simp] theorem State.openBank_mc_refreshPeriod (s : State) (b : BankId) (row : Nat) :
    (s.openBank b row).mc.refreshPeriod = s.mc.refreshPeriod := rfl
@[simp] theorem State.openBank_mc_refreshRunning (s : State) (b : BankId) (row : Nat) :
    (s.openBank b row).mc.refreshRunning = s.mc.refreshRunning := rfl
@[simp] theorem State.openBank_mc_owed (s : State) (b : BankId) (row : Nat) :
    (s.openBank b row).mc.owed = s.mc.owed := rfl
@[simp] theorem State.openBank_mc_committed (s : State) (b : BankId) (row : Nat) :
    (s.openBank b row).mc.committed = s.mc.committed := rfl
@[simp] theorem State.openBank_mc_accepting (s : State) (b : BankId) (row : Nat) :
    (s.openBank b row).mc.accepting = s.mc.accepting := rfl
@[simp] theorem State.openBank_mc_sequencer (s : State) (b : BankId) (row : Nat) :
    (s.openBank b row).mc.sequencer = s.mc.sequencer := rfl
@[simp] theorem State.openBank_mc_resetHeld (s : State) (b : BankId) (row : Nat) :
    (s.openBank b row).mc.resetHeld = s.mc.resetHeld := rfl
@[simp] theorem State.openBank_mc_resetHold (s : State) (b : BankId) (row : Nat) :
    (s.openBank b row).mc.resetHold = s.mc.resetHold := rfl
@[simp] theorem State.openBank_mc_modeGap (s : State) (b : BankId) (row : Nat) :
    (s.openBank b row).mc.modeGap = s.mc.modeGap := rfl
@[simp] theorem State.openBank_mc_port (s : State) (b : BankId) (row : Nat) :
    (s.openBank b row).mc.port = s.mc.port := rfl

@[simp] theorem State.accept_mc_profile (s : State) (t : Transaction) :
    (s.accept t).mc.profile = s.mc.profile := rfl
@[simp] theorem State.accept_mc_rows (s : State) (t : Transaction) :
    (s.accept t).mc.rows = s.mc.rows := rfl
@[simp] theorem State.accept_mc_laneFaults (s : State) (t : Transaction) :
    (s.accept t).mc.laneFaults = s.mc.laneFaults := rfl
@[simp] theorem State.accept_mc_waits (s : State) (t : Transaction) :
    (s.accept t).mc.waits = s.mc.waits := rfl
@[simp] theorem State.accept_mc_reads (s : State) (t : Transaction) :
    (s.accept t).mc.reads = s.mc.reads := rfl
@[simp] theorem State.accept_mc_near (s : State) (t : Transaction) :
    (s.accept t).mc.near = s.mc.near := rfl
@[simp] theorem State.accept_mc_far (s : State) (t : Transaction) :
    (s.accept t).mc.far = s.mc.far := rfl
@[simp] theorem State.accept_mc_turnGap (s : State) (t : Transaction) :
    (s.accept t).mc.turnGap = s.mc.turnGap := rfl
@[simp] theorem State.accept_mc_refreshWait (s : State) (t : Transaction) :
    (s.accept t).mc.refreshWait = s.mc.refreshWait := rfl
@[simp] theorem State.accept_mc_refreshPeriod (s : State) (t : Transaction) :
    (s.accept t).mc.refreshPeriod = s.mc.refreshPeriod := rfl
@[simp] theorem State.accept_mc_refreshRunning (s : State) (t : Transaction) :
    (s.accept t).mc.refreshRunning = s.mc.refreshRunning := rfl
@[simp] theorem State.accept_mc_owed (s : State) (t : Transaction) :
    (s.accept t).mc.owed = s.mc.owed := rfl
@[simp] theorem State.accept_mc_committed (s : State) (t : Transaction) :
    (s.accept t).mc.committed = s.mc.committed := rfl
@[simp] theorem State.accept_mc_accepting (s : State) (t : Transaction) :
    (s.accept t).mc.accepting = s.mc.accepting := rfl
@[simp] theorem State.accept_mc_sequencer (s : State) (t : Transaction) :
    (s.accept t).mc.sequencer = s.mc.sequencer := rfl
@[simp] theorem State.accept_mc_resetHeld (s : State) (t : Transaction) :
    (s.accept t).mc.resetHeld = s.mc.resetHeld := rfl
@[simp] theorem State.accept_mc_resetHold (s : State) (t : Transaction) :
    (s.accept t).mc.resetHold = s.mc.resetHold := rfl
@[simp] theorem State.accept_mc_modeGap (s : State) (t : Transaction) :
    (s.accept t).mc.modeGap = s.mc.modeGap := rfl
@[simp] theorem State.accept_mc_port (s : State) (t : Transaction) :
    (s.accept t).mc.port = s.mc.port := rfl

@[simp] theorem State.retryAccess_mc_profile (s : State) (b : BankId) (a : Access) :
    (s.retryAccess b a).mc.profile = s.mc.profile := rfl
@[simp] theorem State.retryAccess_mc_rows (s : State) (b : BankId) (a : Access) :
    (s.retryAccess b a).mc.rows = s.mc.rows := rfl
@[simp] theorem State.retryAccess_mc_laneFaults (s : State) (b : BankId) (a : Access) :
    (s.retryAccess b a).mc.laneFaults = s.mc.laneFaults := rfl
@[simp] theorem State.retryAccess_mc_waits (s : State) (b : BankId) (a : Access) :
    (s.retryAccess b a).mc.waits = s.mc.waits := rfl
@[simp] theorem State.retryAccess_mc_nextAge (s : State) (b : BankId) (a : Access) :
    (s.retryAccess b a).mc.nextAge = s.mc.nextAge := rfl
@[simp] theorem State.retryAccess_mc_reads (s : State) (b : BankId) (a : Access) :
    (s.retryAccess b a).mc.reads = s.mc.reads := rfl
@[simp] theorem State.retryAccess_mc_near (s : State) (b : BankId) (a : Access) :
    (s.retryAccess b a).mc.near = s.mc.near := rfl
@[simp] theorem State.retryAccess_mc_far (s : State) (b : BankId) (a : Access) :
    (s.retryAccess b a).mc.far = s.mc.far := rfl
@[simp] theorem State.retryAccess_mc_turnGap (s : State) (b : BankId) (a : Access) :
    (s.retryAccess b a).mc.turnGap = s.mc.turnGap := rfl
@[simp] theorem State.retryAccess_mc_refreshWait (s : State) (b : BankId) (a : Access) :
    (s.retryAccess b a).mc.refreshWait = s.mc.refreshWait := rfl
@[simp] theorem State.retryAccess_mc_refreshPeriod (s : State) (b : BankId) (a : Access) :
    (s.retryAccess b a).mc.refreshPeriod = s.mc.refreshPeriod := rfl
@[simp] theorem State.retryAccess_mc_refreshRunning (s : State) (b : BankId) (a : Access) :
    (s.retryAccess b a).mc.refreshRunning = s.mc.refreshRunning := rfl
@[simp] theorem State.retryAccess_mc_owed (s : State) (b : BankId) (a : Access) :
    (s.retryAccess b a).mc.owed = s.mc.owed := rfl
@[simp] theorem State.retryAccess_mc_committed (s : State) (b : BankId) (a : Access) :
    (s.retryAccess b a).mc.committed = s.mc.committed := rfl
@[simp] theorem State.retryAccess_mc_accepting (s : State) (b : BankId) (a : Access) :
    (s.retryAccess b a).mc.accepting = s.mc.accepting := rfl
@[simp] theorem State.retryAccess_mc_sequencer (s : State) (b : BankId) (a : Access) :
    (s.retryAccess b a).mc.sequencer = s.mc.sequencer := rfl
@[simp] theorem State.retryAccess_mc_resetHeld (s : State) (b : BankId) (a : Access) :
    (s.retryAccess b a).mc.resetHeld = s.mc.resetHeld := rfl
@[simp] theorem State.retryAccess_mc_resetHold (s : State) (b : BankId) (a : Access) :
    (s.retryAccess b a).mc.resetHold = s.mc.resetHold := rfl
@[simp] theorem State.retryAccess_mc_modeGap (s : State) (b : BankId) (a : Access) :
    (s.retryAccess b a).mc.modeGap = s.mc.modeGap := rfl
@[simp] theorem State.retryAccess_mc_port (s : State) (b : BankId) (a : Access) :
    (s.retryAccess b a).mc.port = s.mc.port := rfl

@[simp] theorem State.drive_mc_profile (s : State) (c : DeviceCommand) :
    (s.drive c).mc.profile = s.mc.profile := rfl
@[simp] theorem State.drive_mc_rows (s : State) (c : DeviceCommand) :
    (s.drive c).mc.rows = s.mc.rows := rfl
@[simp] theorem State.drive_mc_laneFaults (s : State) (c : DeviceCommand) :
    (s.drive c).mc.laneFaults = s.mc.laneFaults := rfl
@[simp] theorem State.drive_mc_banks (s : State) (c : DeviceCommand) :
    (s.drive c).mc.banks = s.mc.banks := rfl
@[simp] theorem State.drive_mc_idleCandidates (s : State) (c : DeviceCommand) :
    (s.drive c).mc.idleCandidates = s.mc.idleCandidates := rfl
@[simp] theorem State.drive_mc_waits (s : State) (c : DeviceCommand) :
    (s.drive c).mc.waits = s.mc.waits := rfl
@[simp] theorem State.drive_mc_nextAge (s : State) (c : DeviceCommand) :
    (s.drive c).mc.nextAge = s.mc.nextAge := rfl
@[simp] theorem State.drive_mc_reads (s : State) (c : DeviceCommand) :
    (s.drive c).mc.reads = s.mc.reads := rfl
@[simp] theorem State.drive_mc_near (s : State) (c : DeviceCommand) :
    (s.drive c).mc.near = s.mc.near := rfl
@[simp] theorem State.drive_mc_far (s : State) (c : DeviceCommand) :
    (s.drive c).mc.far = s.mc.far := rfl
@[simp] theorem State.drive_mc_turnGap (s : State) (c : DeviceCommand) :
    (s.drive c).mc.turnGap = s.mc.turnGap := rfl
@[simp] theorem State.drive_mc_refreshWait (s : State) (c : DeviceCommand) :
    (s.drive c).mc.refreshWait = s.mc.refreshWait := rfl
@[simp] theorem State.drive_mc_refreshPeriod (s : State) (c : DeviceCommand) :
    (s.drive c).mc.refreshPeriod = s.mc.refreshPeriod := rfl
@[simp] theorem State.drive_mc_refreshRunning (s : State) (c : DeviceCommand) :
    (s.drive c).mc.refreshRunning = s.mc.refreshRunning := rfl
@[simp] theorem State.drive_mc_owed (s : State) (c : DeviceCommand) :
    (s.drive c).mc.owed = s.mc.owed := rfl
@[simp] theorem State.drive_mc_committed (s : State) (c : DeviceCommand) :
    (s.drive c).mc.committed = s.mc.committed := rfl
@[simp] theorem State.drive_mc_accepting (s : State) (c : DeviceCommand) :
    (s.drive c).mc.accepting = s.mc.accepting := rfl
@[simp] theorem State.drive_mc_sequencer (s : State) (c : DeviceCommand) :
    (s.drive c).mc.sequencer = s.mc.sequencer := rfl
@[simp] theorem State.drive_mc_resetHeld (s : State) (c : DeviceCommand) :
    (s.drive c).mc.resetHeld = s.mc.resetHeld := rfl
@[simp] theorem State.drive_mc_resetHold (s : State) (c : DeviceCommand) :
    (s.drive c).mc.resetHold = s.mc.resetHold := rfl
@[simp] theorem State.drive_mc_modeGap (s : State) (c : DeviceCommand) :
    (s.drive c).mc.modeGap = s.mc.modeGap := rfl

@[simp] theorem State.setSequencer_mc_profile (s : State) (p : SequencerPhase) :
    (s.setSequencer p).mc.profile = s.mc.profile := rfl
@[simp] theorem State.setSequencer_mc_rows (s : State) (p : SequencerPhase) :
    (s.setSequencer p).mc.rows = s.mc.rows := rfl
@[simp] theorem State.setSequencer_mc_laneFaults (s : State) (p : SequencerPhase) :
    (s.setSequencer p).mc.laneFaults = s.mc.laneFaults := rfl
@[simp] theorem State.setSequencer_mc_banks (s : State) (p : SequencerPhase) :
    (s.setSequencer p).mc.banks = s.mc.banks := rfl
@[simp] theorem State.setSequencer_mc_idleCandidates (s : State) (p : SequencerPhase) :
    (s.setSequencer p).mc.idleCandidates = s.mc.idleCandidates := rfl
@[simp] theorem State.setSequencer_mc_waits (s : State) (p : SequencerPhase) :
    (s.setSequencer p).mc.waits = s.mc.waits := rfl
@[simp] theorem State.setSequencer_mc_nextAge (s : State) (p : SequencerPhase) :
    (s.setSequencer p).mc.nextAge = s.mc.nextAge := rfl
@[simp] theorem State.setSequencer_mc_reads (s : State) (p : SequencerPhase) :
    (s.setSequencer p).mc.reads = s.mc.reads := rfl
@[simp] theorem State.setSequencer_mc_near (s : State) (p : SequencerPhase) :
    (s.setSequencer p).mc.near = s.mc.near := rfl
@[simp] theorem State.setSequencer_mc_far (s : State) (p : SequencerPhase) :
    (s.setSequencer p).mc.far = s.mc.far := rfl
@[simp] theorem State.setSequencer_mc_turnGap (s : State) (p : SequencerPhase) :
    (s.setSequencer p).mc.turnGap = s.mc.turnGap := rfl
@[simp] theorem State.setSequencer_mc_refreshWait (s : State) (p : SequencerPhase) :
    (s.setSequencer p).mc.refreshWait = s.mc.refreshWait := rfl
@[simp] theorem State.setSequencer_mc_refreshPeriod (s : State) (p : SequencerPhase) :
    (s.setSequencer p).mc.refreshPeriod = s.mc.refreshPeriod := rfl
@[simp] theorem State.setSequencer_mc_refreshRunning (s : State) (p : SequencerPhase) :
    (s.setSequencer p).mc.refreshRunning = s.mc.refreshRunning := rfl
@[simp] theorem State.setSequencer_mc_owed (s : State) (p : SequencerPhase) :
    (s.setSequencer p).mc.owed = s.mc.owed := rfl
@[simp] theorem State.setSequencer_mc_committed (s : State) (p : SequencerPhase) :
    (s.setSequencer p).mc.committed = s.mc.committed := rfl
@[simp] theorem State.setSequencer_mc_accepting (s : State) (p : SequencerPhase) :
    (s.setSequencer p).mc.accepting = s.mc.accepting := rfl
@[simp] theorem State.setSequencer_mc_resetHeld (s : State) (p : SequencerPhase) :
    (s.setSequencer p).mc.resetHeld = s.mc.resetHeld := rfl
@[simp] theorem State.setSequencer_mc_resetHold (s : State) (p : SequencerPhase) :
    (s.setSequencer p).mc.resetHold = s.mc.resetHold := rfl
@[simp] theorem State.setSequencer_mc_modeGap (s : State) (p : SequencerPhase) :
    (s.setSequencer p).mc.modeGap = s.mc.modeGap := rfl
@[simp] theorem State.setSequencer_mc_port (s : State) (p : SequencerPhase) :
    (s.setSequencer p).mc.port = s.mc.port := rfl

@[simp] theorem State.startGaps_mc_profile (s : State) (g : GroupId) (isWrite : Bool) :
    (s.startGaps g isWrite).mc.profile = s.mc.profile := rfl
@[simp] theorem State.startGaps_mc_rows (s : State) (g : GroupId) (isWrite : Bool) :
    (s.startGaps g isWrite).mc.rows = s.mc.rows := rfl
@[simp] theorem State.startGaps_mc_laneFaults (s : State) (g : GroupId) (isWrite : Bool) :
    (s.startGaps g isWrite).mc.laneFaults = s.mc.laneFaults := rfl
@[simp] theorem State.startGaps_mc_banks (s : State) (g : GroupId) (isWrite : Bool) :
    (s.startGaps g isWrite).mc.banks = s.mc.banks := rfl
@[simp] theorem State.startGaps_mc_idleCandidates (s : State) (g : GroupId) (isWrite : Bool) :
    (s.startGaps g isWrite).mc.idleCandidates = s.mc.idleCandidates := rfl
@[simp] theorem State.startGaps_mc_waits (s : State) (g : GroupId) (isWrite : Bool) :
    (s.startGaps g isWrite).mc.waits = s.mc.waits := rfl
@[simp] theorem State.startGaps_mc_nextAge (s : State) (g : GroupId) (isWrite : Bool) :
    (s.startGaps g isWrite).mc.nextAge = s.mc.nextAge := rfl
@[simp] theorem State.startGaps_mc_reads (s : State) (g : GroupId) (isWrite : Bool) :
    (s.startGaps g isWrite).mc.reads = s.mc.reads := rfl
@[simp] theorem State.startGaps_mc_refreshWait (s : State) (g : GroupId) (isWrite : Bool) :
    (s.startGaps g isWrite).mc.refreshWait = s.mc.refreshWait := rfl
@[simp] theorem State.startGaps_mc_refreshPeriod (s : State) (g : GroupId) (isWrite : Bool) :
    (s.startGaps g isWrite).mc.refreshPeriod = s.mc.refreshPeriod := rfl
@[simp] theorem State.startGaps_mc_refreshRunning (s : State) (g : GroupId) (isWrite : Bool) :
    (s.startGaps g isWrite).mc.refreshRunning = s.mc.refreshRunning := rfl
@[simp] theorem State.startGaps_mc_owed (s : State) (g : GroupId) (isWrite : Bool) :
    (s.startGaps g isWrite).mc.owed = s.mc.owed := rfl
@[simp] theorem State.startGaps_mc_committed (s : State) (g : GroupId) (isWrite : Bool) :
    (s.startGaps g isWrite).mc.committed = s.mc.committed := rfl
@[simp] theorem State.startGaps_mc_accepting (s : State) (g : GroupId) (isWrite : Bool) :
    (s.startGaps g isWrite).mc.accepting = s.mc.accepting := rfl
@[simp] theorem State.startGaps_mc_sequencer (s : State) (g : GroupId) (isWrite : Bool) :
    (s.startGaps g isWrite).mc.sequencer = s.mc.sequencer := rfl
@[simp] theorem State.startGaps_mc_resetHeld (s : State) (g : GroupId) (isWrite : Bool) :
    (s.startGaps g isWrite).mc.resetHeld = s.mc.resetHeld := rfl
@[simp] theorem State.startGaps_mc_resetHold (s : State) (g : GroupId) (isWrite : Bool) :
    (s.startGaps g isWrite).mc.resetHold = s.mc.resetHold := rfl
@[simp] theorem State.startGaps_mc_modeGap (s : State) (g : GroupId) (isWrite : Bool) :
    (s.startGaps g isWrite).mc.modeGap = s.mc.modeGap := rfl
@[simp] theorem State.startGaps_mc_port (s : State) (g : GroupId) (isWrite : Bool) :
    (s.startGaps g isWrite).mc.port = s.mc.port := rfl

@[simp] theorem State.issue_bi_setupL (s : State) (kind : AccessKind) (addr : Addr) (size : Nat) (data : List Byte) :
    (s.issue kind addr size data).bi.setupL = s.bi.setupL := rfl
@[simp] theorem State.issue_bi_setupH (s : State) (kind : AccessKind) (addr : Addr) (size : Nat) (data : List Byte) :
    (s.issue kind addr size data).bi.setupH = s.bi.setupH := rfl

@[simp] theorem State.issueRead_bi_setupL (s : State) (kind : AccessKind) (addr : Addr) (size : Nat) :
    (s.issueRead kind addr size).bi.setupL = s.bi.setupL := rfl
@[simp] theorem State.issueRead_bi_setupH (s : State) (kind : AccessKind) (addr : Addr) (size : Nat) :
    (s.issueRead kind addr size).bi.setupH = s.bi.setupH := rfl

@[simp] theorem State.issueWrite_bi_setupL (s : State) (kind : AccessKind) (addr : Addr) (data : List Byte) :
    (s.issueWrite kind addr data).bi.setupL = s.bi.setupL := rfl
@[simp] theorem State.issueWrite_bi_setupH (s : State) (kind : AccessKind) (addr : Addr) (data : List Byte) :
    (s.issueWrite kind addr data).bi.setupH = s.bi.setupH := rfl

@[simp] theorem State.reissue_bi_setupL (s : State) (a : BusAccess) :
    (s.reissue a).bi.setupL = s.bi.setupL := rfl
@[simp] theorem State.reissue_bi_setupH (s : State) (a : BusAccess) :
    (s.reissue a).bi.setupH = s.bi.setupH := rfl
@[simp] theorem State.reissue_bi_nextTag (s : State) (a : BusAccess) :
    (s.reissue a).bi.nextTag = s.bi.nextTag := rfl

@[simp] theorem State.endAccess_bi_setupL (s : State) (tag : Nat) :
    (s.endAccess tag).bi.setupL = s.bi.setupL := rfl
@[simp] theorem State.endAccess_bi_setupH (s : State) (tag : Nat) :
    (s.endAccess tag).bi.setupH = s.bi.setupH := rfl
@[simp] theorem State.endAccess_bi_nextTag (s : State) (tag : Nat) :
    (s.endAccess tag).bi.nextTag = s.bi.nextTag := rfl

/-! ## What an update writes -/

@[simp] theorem State.slot_setSlot_self (s : State) (k : SlotId) (x : Slot) :
    (s.setSlot k x).slot k = x := by
  simp [State.slot, State.setSlot]

theorem State.slot_setSlot_of_ne (s : State) {j k : SlotId} (x : Slot) (h : j ≠ k) :
    (s.setSlot k x).slot j = s.slot j := by
  have : (k : Nat) ≠ j := fun e => h (Fin.ext e.symm)
  simp [State.slot, State.setSlot, Vector.getElem_set_ne, this]

@[simp] theorem State.slot_modifySlot_self (s : State) (k : SlotId) (f : Slot → Slot) :
    (s.modifySlot k f).slot k = f (s.slot k) := by
  simp [State.modifySlot]

theorem State.slot_modifySlot_of_ne (s : State) {j k : SlotId} (f : Slot → Slot) (h : j ≠ k) :
    (s.modifySlot k f).slot j = s.slot j :=
  s.slot_setSlot_of_ne _ h

@[simp] theorem State.cacheSet_putSet_self (s : State) (i : SetId) (c : CacheSet) :
    (s.putSet i c).cacheSet i = c := by
  simp [State.cacheSet, State.putSet]

theorem State.cacheSet_putSet_of_ne (s : State) {i j : SetId} (c : CacheSet) (h : j ≠ i) :
    (s.putSet i c).cacheSet j = s.cacheSet j := by
  have : (i : Nat) ≠ j := fun e => h (Fin.ext e.symm)
  simp [State.cacheSet, State.putSet, Vector.getElem_set_ne, this]

@[simp] theorem State.line_setLine_self (s : State) (i : SetId) (w : Way) (l : Line) :
    (s.setLine i w l).line i w = l := by
  simp [State.line, State.setLine]

@[simp] theorem State.line_modifyLine_self (s : State) (i : SetId) (w : Way) (f : Line → Line) :
    (s.modifyLine i w f).line i w = f (s.line i w) := by
  simp [State.modifyLine]

@[simp] theorem State.bank_setBank_self (s : State) (b : BankId) (x : Bank) :
    (s.setBank b x).bank b = x := by
  simp [State.bank, State.setBank]

theorem State.bank_setBank_of_ne (s : State) {a b : BankId} (x : Bank) (h : a ≠ b) :
    (s.setBank b x).bank a = s.bank a := by
  have : (b : Nat) ≠ a := fun e => h (Fin.ext e.symm)
  simp [State.bank, State.setBank, Vector.getElem_set_ne, this]

@[simp] theorem State.bank_modifyBank_self (s : State) (b : BankId) (f : Bank → Bank) :
    (s.modifyBank b f).bank b = f (s.bank b) := by
  simp [State.modifyBank]

theorem State.bank_modifyBank_of_ne (s : State) {a b : BankId} (f : Bank → Bank) (h : a ≠ b) :
    (s.modifyBank b f).bank a = s.bank a :=
  s.bank_setBank_of_ne _ h

@[simp] theorem State.count_counters (s : State) (f : Counters → Counters) :
    (s.count f).ec.counters = f s.ec.counters := rfl

@[simp] theorem State.issue_accesses (s : State) (kind : AccessKind) (addr : Addr) (size : Nat)
    (data : List Byte) :
    (s.issue kind addr size data).bi.accesses =
      s.bi.accesses ++ [⟨s.bi.nextTag, kind, addr, size, data, true⟩] := rfl

@[simp] theorem State.issueRead_accesses (s : State) (kind : AccessKind) (addr : Addr)
    (size : Nat) :
    (s.issueRead kind addr size).bi.accesses =
      s.bi.accesses ++ [⟨s.bi.nextTag, kind, addr, size, [], true⟩] := rfl

@[simp] theorem State.issueWrite_accesses (s : State) (kind : AccessKind) (addr : Addr)
    (data : List Byte) :
    (s.issueWrite kind addr data).bi.accesses =
      s.bi.accesses ++ [⟨s.bi.nextTag, kind, addr, data.length, data, true⟩] := rfl

@[simp] theorem State.reissue_accesses (s : State) (a : BusAccess) :
    (s.reissue a).bi.accesses = s.bi.accesses ++ [a] := rfl

@[simp] theorem State.endAccess_accesses (s : State) (tag : Nat) :
    (s.endAccess tag).bi.accesses = s.bi.accesses.filter fun a => a.tag != tag := rfl

@[simp] theorem State.withPending_pending (s : State) (q : List Instr) :
    (s.withPending q).pending = q := rfl

end Sys2Proof.Machine
end

