-- ==== Sys2Proof/Laws/Frames.lean ====
section
/-! SUPPORT. Which blocks each shared operation may touch: one lemma for each block it leaves alone. -/

namespace Sys2Proof.Machine

@[simp] theorem State.statusUpdate_bi (s : State) :
    (s.statusUpdate).bi = s.bi := by
  simp only [State.statusUpdate]
  split <;> rfl
@[simp] theorem State.statusUpdate_cu (s : State) :
    (s.statusUpdate).cu = s.cu := by
  simp only [State.statusUpdate]
  split <;> rfl
@[simp] theorem State.statusUpdate_rt (s : State) :
    (s.statusUpdate).rt = s.rt := by
  simp only [State.statusUpdate]
  split <;> rfl
@[simp] theorem State.statusUpdate_tl (s : State) :
    (s.statusUpdate).tl = s.tl := by
  simp only [State.statusUpdate]
  split <;> rfl
@[simp] theorem State.statusUpdate_bc (s : State) :
    (s.statusUpdate).bc = s.bc := by
  simp only [State.statusUpdate]
  split <;> rfl
@[simp] theorem State.statusUpdate_mc (s : State) :
    (s.statusUpdate).mc = s.mc := by
  simp only [State.statusUpdate]
  split <;> rfl
@[simp] theorem State.statusUpdate_pending (s : State) :
    (s.statusUpdate).pending = s.pending := by
  simp only [State.statusUpdate]
  split <;> rfl

@[simp] theorem State.raise_bi (s : State) (cause : BitVec 5) :
    (s.raise cause).bi = s.bi := by
  simp only [State.raise]
  split <;> rfl
@[simp] theorem State.raise_cu (s : State) (cause : BitVec 5) :
    (s.raise cause).cu = s.cu := by
  simp only [State.raise]
  split <;> rfl
@[simp] theorem State.raise_rt (s : State) (cause : BitVec 5) :
    (s.raise cause).rt = s.rt := by
  simp only [State.raise]
  split <;> rfl
@[simp] theorem State.raise_tl (s : State) (cause : BitVec 5) :
    (s.raise cause).tl = s.tl := by
  simp only [State.raise]
  split <;> rfl
@[simp] theorem State.raise_bc (s : State) (cause : BitVec 5) :
    (s.raise cause).bc = s.bc := by
  simp only [State.raise]
  split <;> rfl
@[simp] theorem State.raise_mc (s : State) (cause : BitVec 5) :
    (s.raise cause).mc = s.mc := by
  simp only [State.raise]
  split <;> rfl
@[simp] theorem State.raise_pending (s : State) (cause : BitVec 5) :
    (s.raise cause).pending = s.pending := by
  simp only [State.raise]
  split <;> rfl

@[simp] theorem State.enterStall_bi (s : State) (r : ResumeState) (host bad : Bool) :
    (s.enterStall r host bad).bi = s.bi := by
  simp [State.enterStall]
@[simp] theorem State.enterStall_cu (s : State) (r : ResumeState) (host bad : Bool) :
    (s.enterStall r host bad).cu = s.cu := by
  simp [State.enterStall]
@[simp] theorem State.enterStall_rt (s : State) (r : ResumeState) (host bad : Bool) :
    (s.enterStall r host bad).rt = s.rt := by
  simp [State.enterStall]
@[simp] theorem State.enterStall_tl (s : State) (r : ResumeState) (host bad : Bool) :
    (s.enterStall r host bad).tl = s.tl := by
  simp [State.enterStall]
@[simp] theorem State.enterStall_bc (s : State) (r : ResumeState) (host bad : Bool) :
    (s.enterStall r host bad).bc = s.bc := by
  simp [State.enterStall]
@[simp] theorem State.enterStall_mc (s : State) (r : ResumeState) (host bad : Bool) :
    (s.enterStall r host bad).mc = s.mc := by
  simp [State.enterStall]
@[simp] theorem State.enterStall_pending (s : State) (r : ResumeState) (host bad : Bool) :
    (s.enterStall r host bad).pending = s.pending := by
  simp [State.enterStall]

@[simp] theorem State.reportStall_bi (s : State) (host bad : Bool) :
    (s.reportStall host bad).bi = s.bi := by
  simp only [State.reportStall]
  repeat' split
  all_goals simp
@[simp] theorem State.reportStall_cu (s : State) (host bad : Bool) :
    (s.reportStall host bad).cu = s.cu := by
  simp only [State.reportStall]
  repeat' split
  all_goals simp
@[simp] theorem State.reportStall_rt (s : State) (host bad : Bool) :
    (s.reportStall host bad).rt = s.rt := by
  simp only [State.reportStall]
  repeat' split
  all_goals simp
@[simp] theorem State.reportStall_tl (s : State) (host bad : Bool) :
    (s.reportStall host bad).tl = s.tl := by
  simp only [State.reportStall]
  repeat' split
  all_goals simp
@[simp] theorem State.reportStall_bc (s : State) (host bad : Bool) :
    (s.reportStall host bad).bc = s.bc := by
  simp only [State.reportStall]
  repeat' split
  all_goals simp
@[simp] theorem State.reportStall_mc (s : State) (host bad : Bool) :
    (s.reportStall host bad).mc = s.mc := by
  simp only [State.reportStall]
  repeat' split
  all_goals simp
@[simp] theorem State.reportStall_pending (s : State) (host bad : Bool) :
    (s.reportStall host bad).pending = s.pending := by
  simp only [State.reportStall]
  repeat' split
  all_goals simp

@[simp] theorem State.reportHostFault_bi (s : State) :
    (s.reportHostFault).bi = s.bi := by
  simp [State.reportHostFault]
@[simp] theorem State.reportHostFault_cu (s : State) :
    (s.reportHostFault).cu = s.cu := by
  simp [State.reportHostFault]
@[simp] theorem State.reportHostFault_rt (s : State) :
    (s.reportHostFault).rt = s.rt := by
  simp [State.reportHostFault]
@[simp] theorem State.reportHostFault_tl (s : State) :
    (s.reportHostFault).tl = s.tl := by
  simp [State.reportHostFault]
@[simp] theorem State.reportHostFault_bc (s : State) :
    (s.reportHostFault).bc = s.bc := by
  simp [State.reportHostFault]
@[simp] theorem State.reportHostFault_mc (s : State) :
    (s.reportHostFault).mc = s.mc := by
  simp [State.reportHostFault]
@[simp] theorem State.reportHostFault_pending (s : State) :
    (s.reportHostFault).pending = s.pending := by
  simp [State.reportHostFault]

@[simp] theorem State.reportBadBatch_bi (s : State) :
    (s.reportBadBatch).bi = s.bi := by
  simp [State.reportBadBatch]
@[simp] theorem State.reportBadBatch_cu (s : State) :
    (s.reportBadBatch).cu = s.cu := by
  simp [State.reportBadBatch]
@[simp] theorem State.reportBadBatch_rt (s : State) :
    (s.reportBadBatch).rt = s.rt := by
  simp [State.reportBadBatch]
@[simp] theorem State.reportBadBatch_tl (s : State) :
    (s.reportBadBatch).tl = s.tl := by
  simp [State.reportBadBatch]
@[simp] theorem State.reportBadBatch_bc (s : State) :
    (s.reportBadBatch).bc = s.bc := by
  simp [State.reportBadBatch]
@[simp] theorem State.reportBadBatch_mc (s : State) :
    (s.reportBadBatch).mc = s.mc := by
  simp [State.reportBadBatch]
@[simp] theorem State.reportBadBatch_pending (s : State) :
    (s.reportBadBatch).pending = s.pending := by
  simp [State.reportBadBatch]

@[simp] theorem State.closeEvent_cu (s : State) :
    (s.closeEvent).cu = s.cu := by
  simp only [State.closeEvent]
  split <;> rfl
@[simp] theorem State.closeEvent_rt (s : State) :
    (s.closeEvent).rt = s.rt := by
  simp only [State.closeEvent]
  split <;> rfl
@[simp] theorem State.closeEvent_tl (s : State) :
    (s.closeEvent).tl = s.tl := by
  simp only [State.closeEvent]
  split <;> rfl
@[simp] theorem State.closeEvent_bc (s : State) :
    (s.closeEvent).bc = s.bc := by
  simp only [State.closeEvent]
  split <;> rfl
@[simp] theorem State.closeEvent_mc (s : State) :
    (s.closeEvent).mc = s.mc := by
  simp only [State.closeEvent]
  split <;> rfl
@[simp] theorem State.closeEvent_pending (s : State) :
    (s.closeEvent).pending = s.pending := by
  simp only [State.closeEvent]
  split <;> rfl

@[simp] theorem State.reportEmpty_bi (s : State) :
    (s.reportEmpty).bi = s.bi := by
  simp only [State.reportEmpty]
  split <;> rfl
@[simp] theorem State.reportEmpty_cu (s : State) :
    (s.reportEmpty).cu = s.cu := by
  simp only [State.reportEmpty]
  split <;> rfl
@[simp] theorem State.reportEmpty_rt (s : State) :
    (s.reportEmpty).rt = s.rt := by
  simp only [State.reportEmpty]
  split <;> rfl
@[simp] theorem State.reportEmpty_tl (s : State) :
    (s.reportEmpty).tl = s.tl := by
  simp only [State.reportEmpty]
  split <;> rfl
@[simp] theorem State.reportEmpty_bc (s : State) :
    (s.reportEmpty).bc = s.bc := by
  simp only [State.reportEmpty]
  split <;> rfl
@[simp] theorem State.reportEmpty_mc (s : State) :
    (s.reportEmpty).mc = s.mc := by
  simp only [State.reportEmpty]
  split <;> rfl
@[simp] theorem State.reportEmpty_pending (s : State) :
    (s.reportEmpty).pending = s.pending := by
  simp only [State.reportEmpty]
  split <;> rfl

@[simp] theorem State.completeStop_bi (s : State) :
    (s.completeStop).bi = s.bi := by
  simp only [State.completeStop]
  split <;> simp
@[simp] theorem State.completeStop_cu (s : State) :
    (s.completeStop).cu = s.cu := by
  simp only [State.completeStop]
  split <;> simp
@[simp] theorem State.completeStop_rt (s : State) :
    (s.completeStop).rt = s.rt := by
  simp only [State.completeStop]
  split <;> simp
@[simp] theorem State.completeStop_tl (s : State) :
    (s.completeStop).tl = s.tl := by
  simp only [State.completeStop]
  split <;> simp
@[simp] theorem State.completeStop_bc (s : State) :
    (s.completeStop).bc = s.bc := by
  simp only [State.completeStop]
  split <;> simp
@[simp] theorem State.completeStop_mc (s : State) :
    (s.completeStop).mc = s.mc := by
  simp only [State.completeStop]
  split <;> simp
@[simp] theorem State.completeStop_pending (s : State) :
    (s.completeStop).pending = s.pending := by
  simp only [State.completeStop]
  split <;> simp

@[simp] theorem State.afterLastRecord_ec (s : State) (a : Addr) :
    (s.afterLastRecord a).ec = s.ec := by
  simp only [State.afterLastRecord]
  split <;> rfl
@[simp] theorem State.afterLastRecord_rt (s : State) (a : Addr) :
    (s.afterLastRecord a).rt = s.rt := by
  simp only [State.afterLastRecord]
  split <;> rfl
@[simp] theorem State.afterLastRecord_tl (s : State) (a : Addr) :
    (s.afterLastRecord a).tl = s.tl := by
  simp only [State.afterLastRecord]
  split <;> rfl
@[simp] theorem State.afterLastRecord_bc (s : State) (a : Addr) :
    (s.afterLastRecord a).bc = s.bc := by
  simp only [State.afterLastRecord]
  split <;> rfl
@[simp] theorem State.afterLastRecord_mc (s : State) (a : Addr) :
    (s.afterLastRecord a).mc = s.mc := by
  simp only [State.afterLastRecord]
  split <;> rfl
@[simp] theorem State.afterLastRecord_pending (s : State) (a : Addr) :
    (s.afterLastRecord a).pending = s.pending := by
  simp only [State.afterLastRecord]
  split <;> rfl

@[simp] theorem State.issueRecordRead_ec (s : State) (k : SlotId) :
    (s.issueRecordRead k).ec = s.ec := by
  simp only [State.issueRecordRead]
  split
  · split <;> simp
  · simp
@[simp] theorem State.issueRecordRead_rt (s : State) (k : SlotId) :
    (s.issueRecordRead k).rt = s.rt := by
  simp only [State.issueRecordRead]
  split
  · split <;> simp
  · simp
@[simp] theorem State.issueRecordRead_tl (s : State) (k : SlotId) :
    (s.issueRecordRead k).tl = s.tl := by
  simp only [State.issueRecordRead]
  split
  · split <;> simp
  · simp
@[simp] theorem State.issueRecordRead_bc (s : State) (k : SlotId) :
    (s.issueRecordRead k).bc = s.bc := by
  simp only [State.issueRecordRead]
  split
  · split <;> simp
  · simp
@[simp] theorem State.issueRecordRead_mc (s : State) (k : SlotId) :
    (s.issueRecordRead k).mc = s.mc := by
  simp only [State.issueRecordRead]
  split
  · split <;> simp
  · simp
@[simp] theorem State.issueRecordRead_pending (s : State) (k : SlotId) :
    (s.issueRecordRead k).pending = s.pending := by
  simp only [State.issueRecordRead]
  split
  · split <;> simp
  · simp

theorem State.foldl_issueRecordRead_frame (l : List SlotId) (s : State) :
    (l.foldl State.issueRecordRead s).ec = s.ec ∧ (l.foldl State.issueRecordRead s).rt = s.rt
      ∧ (l.foldl State.issueRecordRead s).tl = s.tl ∧ (l.foldl State.issueRecordRead s).bc = s.bc
      ∧ (l.foldl State.issueRecordRead s).mc = s.mc
      ∧ (l.foldl State.issueRecordRead s).pending = s.pending := by
  induction l generalizing s with
  | nil => simp
  | cons t l ih => simpa using ih (s.issueRecordRead t)

@[simp] theorem State.issueGiven_ec (s : State) : s.issueGiven.ec = s.ec := by
  simp only [State.issueGiven]
  split
  · exact (State.foldl_issueRecordRead_frame _ _).1
  · rfl

@[simp] theorem State.issueGiven_rt (s : State) : s.issueGiven.rt = s.rt := by
  simp only [State.issueGiven]
  split
  · exact (State.foldl_issueRecordRead_frame _ _).2.1
  · rfl

@[simp] theorem State.issueGiven_tl (s : State) : s.issueGiven.tl = s.tl := by
  simp only [State.issueGiven]
  split
  · exact (State.foldl_issueRecordRead_frame _ _).2.2.1
  · rfl

@[simp] theorem State.issueGiven_bc (s : State) : s.issueGiven.bc = s.bc := by
  simp only [State.issueGiven]
  split
  · exact (State.foldl_issueRecordRead_frame _ _).2.2.2.1
  · rfl

@[simp] theorem State.issueGiven_mc (s : State) : s.issueGiven.mc = s.mc := by
  simp only [State.issueGiven]
  split
  · exact (State.foldl_issueRecordRead_frame _ _).2.2.2.2.1
  · rfl

@[simp] theorem State.issueGiven_pending (s : State) : s.issueGiven.pending = s.pending := by
  simp only [State.issueGiven]
  split
  · exact (State.foldl_issueRecordRead_frame _ _).2.2.2.2.2
  · rfl

theorem State.giveOne_frame (s : State) {t : State} (h : s.giveOne = some t) :
    t.bi = s.bi ∧ t.ec = s.ec ∧ t.tl = s.tl ∧ t.bc = s.bc ∧ t.mc = s.mc ∧ t.pending = s.pending := by
  simp only [State.giveOne] at h
  split at h
  · simp only [Option.bind_eq_some_iff] at h
    obtain ⟨b, _, h⟩ := h
    split at h
    · simp only [Option.map_eq_some_iff] at h
      obtain ⟨k, _, rfl⟩ := h
      simp
    · simp at h
  · simp at h

/-- Giving slots touches the Request Table and the Chain Unit alone. -/
theorem State.giveSlots_frame (n : Nat) (s : State) :
    (State.giveSlots n s).bi = s.bi ∧ (State.giveSlots n s).ec = s.ec
      ∧ (State.giveSlots n s).tl = s.tl ∧ (State.giveSlots n s).bc = s.bc
      ∧ (State.giveSlots n s).mc = s.mc ∧ (State.giveSlots n s).pending = s.pending := by
  induction n generalizing s with
  | zero => simp [State.giveSlots]
  | succ n ih =>
    simp only [State.giveSlots]
    split
    · rename_i t h
      obtain ⟨a, b, c, d, e, f⟩ := s.giveOne_frame h
      obtain ⟨a', b', c', d', e', f'⟩ := ih t
      exact ⟨a'.trans a, b'.trans b, c'.trans c, d'.trans d, e'.trans e, f'.trans f⟩
    · simp

@[simp] theorem State.giveSlots_bi (n : Nat) (s : State) :
    (State.giveSlots n s).bi = s.bi := (State.giveSlots_frame n s).1

@[simp] theorem State.giveSlots_ec (n : Nat) (s : State) :
    (State.giveSlots n s).ec = s.ec := (State.giveSlots_frame n s).2.1

@[simp] theorem State.giveSlots_tl (n : Nat) (s : State) :
    (State.giveSlots n s).tl = s.tl := (State.giveSlots_frame n s).2.2.1

@[simp] theorem State.giveSlots_bc (n : Nat) (s : State) :
    (State.giveSlots n s).bc = s.bc := (State.giveSlots_frame n s).2.2.2.1

@[simp] theorem State.giveSlots_mc (n : Nat) (s : State) :
    (State.giveSlots n s).mc = s.mc := (State.giveSlots_frame n s).2.2.2.2.1

@[simp] theorem State.giveSlots_pending (n : Nat) (s : State) :
    (State.giveSlots n s).pending = s.pending := (State.giveSlots_frame n s).2.2.2.2.2

@[simp] theorem State.readRecords_ec (s : State) :
    (s.readRecords).ec = s.ec := by
  simp [State.readRecords]
@[simp] theorem State.readRecords_tl (s : State) :
    (s.readRecords).tl = s.tl := by
  simp [State.readRecords]
@[simp] theorem State.readRecords_bc (s : State) :
    (s.readRecords).bc = s.bc := by
  simp [State.readRecords]
@[simp] theorem State.readRecords_mc (s : State) :
    (s.readRecords).mc = s.mc := by
  simp [State.readRecords]
@[simp] theorem State.readRecords_pending (s : State) :
    (s.readRecords).pending = s.pending := by
  simp [State.readRecords]

@[simp] theorem State.refuseBatch_bi (s : State) :
    (s.refuseBatch).bi = s.bi := by
  simp [State.refuseBatch]
@[simp] theorem State.refuseBatch_rt (s : State) :
    (s.refuseBatch).rt = s.rt := by
  simp [State.refuseBatch]
@[simp] theorem State.refuseBatch_tl (s : State) :
    (s.refuseBatch).tl = s.tl := by
  simp [State.refuseBatch]
@[simp] theorem State.refuseBatch_bc (s : State) :
    (s.refuseBatch).bc = s.bc := by
  simp [State.refuseBatch]
@[simp] theorem State.refuseBatch_mc (s : State) :
    (s.refuseBatch).mc = s.mc := by
  simp [State.refuseBatch]
@[simp] theorem State.refuseBatch_pending (s : State) :
    (s.refuseBatch).pending = s.pending := by
  simp [State.refuseBatch]

@[simp] theorem State.readHeader_rt (s : State) :
    (s.readHeader).rt = s.rt := by
  simp only [State.readHeader]
  repeat' split
  all_goals simp
@[simp] theorem State.readHeader_tl (s : State) :
    (s.readHeader).tl = s.tl := by
  simp only [State.readHeader]
  repeat' split
  all_goals simp
@[simp] theorem State.readHeader_bc (s : State) :
    (s.readHeader).bc = s.bc := by
  simp only [State.readHeader]
  repeat' split
  all_goals simp
@[simp] theorem State.readHeader_mc (s : State) :
    (s.readHeader).mc = s.mc := by
  simp only [State.readHeader]
  repeat' split
  all_goals simp
@[simp] theorem State.readHeader_pending (s : State) :
    (s.readHeader).pending = s.pending := by
  simp only [State.readHeader]
  repeat' split
  all_goals simp

@[simp] theorem State.readLink_ec (s : State) :
    (s.readLink).ec = s.ec := by
  simp only [State.readLink]
  split
  · split <;> simp
  · simp
@[simp] theorem State.readLink_rt (s : State) :
    (s.readLink).rt = s.rt := by
  simp only [State.readLink]
  split
  · split <;> simp
  · simp
@[simp] theorem State.readLink_tl (s : State) :
    (s.readLink).tl = s.tl := by
  simp only [State.readLink]
  split
  · split <;> simp
  · simp
@[simp] theorem State.readLink_bc (s : State) :
    (s.readLink).bc = s.bc := by
  simp only [State.readLink]
  split
  · split <;> simp
  · simp
@[simp] theorem State.readLink_mc (s : State) :
    (s.readLink).mc = s.mc := by
  simp only [State.readLink]
  split
  · split <;> simp
  · simp
@[simp] theorem State.readLink_pending (s : State) :
    (s.readLink).pending = s.pending := by
  simp only [State.readLink]
  split
  · split <;> simp
  · simp

@[simp] theorem State.release_ec (s : State) (a : Addr) :
    (s.release a).ec = s.ec := by
  simp only [State.release]
  split <;> rfl
@[simp] theorem State.release_rt (s : State) (a : Addr) :
    (s.release a).rt = s.rt := by
  simp only [State.release]
  split <;> rfl
@[simp] theorem State.release_tl (s : State) (a : Addr) :
    (s.release a).tl = s.tl := by
  simp only [State.release]
  split <;> rfl
@[simp] theorem State.release_bc (s : State) (a : Addr) :
    (s.release a).bc = s.bc := by
  simp only [State.release]
  split <;> rfl
@[simp] theorem State.release_mc (s : State) (a : Addr) :
    (s.release a).mc = s.mc := by
  simp only [State.release]
  split <;> rfl
@[simp] theorem State.release_pending (s : State) (a : Addr) :
    (s.release a).pending = s.pending := by
  simp only [State.release]
  split <;> rfl

@[simp] theorem State.followAnchor_ec (s : State) :
    (s.followAnchor).ec = s.ec := by
  simp only [State.followAnchor]
  repeat' split
  all_goals simp
@[simp] theorem State.followAnchor_rt (s : State) :
    (s.followAnchor).rt = s.rt := by
  simp only [State.followAnchor]
  repeat' split
  all_goals simp
@[simp] theorem State.followAnchor_tl (s : State) :
    (s.followAnchor).tl = s.tl := by
  simp only [State.followAnchor]
  repeat' split
  all_goals simp
@[simp] theorem State.followAnchor_bc (s : State) :
    (s.followAnchor).bc = s.bc := by
  simp only [State.followAnchor]
  repeat' split
  all_goals simp
@[simp] theorem State.followAnchor_mc (s : State) :
    (s.followAnchor).mc = s.mc := by
  simp only [State.followAnchor]
  repeat' split
  all_goals simp
@[simp] theorem State.followAnchor_pending (s : State) :
    (s.followAnchor).pending = s.pending := by
  simp only [State.followAnchor]
  repeat' split
  all_goals simp

@[simp] theorem State.writeTaken_ec (s : State) (a : Addr) :
    (s.writeTaken a).ec = s.ec := by
  simp only [State.writeTaken]
  split <;> rfl
@[simp] theorem State.writeTaken_cu (s : State) (a : Addr) :
    (s.writeTaken a).cu = s.cu := by
  simp only [State.writeTaken]
  split <;> rfl
@[simp] theorem State.writeTaken_rt (s : State) (a : Addr) :
    (s.writeTaken a).rt = s.rt := by
  simp only [State.writeTaken]
  split <;> rfl
@[simp] theorem State.writeTaken_tl (s : State) (a : Addr) :
    (s.writeTaken a).tl = s.tl := by
  simp only [State.writeTaken]
  split <;> rfl
@[simp] theorem State.writeTaken_bc (s : State) (a : Addr) :
    (s.writeTaken a).bc = s.bc := by
  simp only [State.writeTaken]
  split <;> rfl
@[simp] theorem State.writeTaken_mc (s : State) (a : Addr) :
    (s.writeTaken a).mc = s.mc := by
  simp only [State.writeTaken]
  split <;> rfl
@[simp] theorem State.writeTaken_pending (s : State) (a : Addr) :
    (s.writeTaken a).pending = s.pending := by
  simp only [State.writeTaken]
  split <;> rfl

@[simp] theorem State.takeBatch_ec (s : State) (a : Addr) (d : Block64) :
    (s.takeBatch a d).ec = s.ec := by
  simp [State.takeBatch]
@[simp] theorem State.takeBatch_rt (s : State) (a : Addr) (d : Block64) :
    (s.takeBatch a d).rt = s.rt := by
  simp [State.takeBatch]
@[simp] theorem State.takeBatch_tl (s : State) (a : Addr) (d : Block64) :
    (s.takeBatch a d).tl = s.tl := by
  simp [State.takeBatch]
@[simp] theorem State.takeBatch_bc (s : State) (a : Addr) (d : Block64) :
    (s.takeBatch a d).bc = s.bc := by
  simp [State.takeBatch]
@[simp] theorem State.takeBatch_mc (s : State) (a : Addr) (d : Block64) :
    (s.takeBatch a d).mc = s.mc := by
  simp [State.takeBatch]
@[simp] theorem State.takeBatch_pending (s : State) (a : Addr) (d : Block64) :
    (s.takeBatch a d).pending = s.pending := by
  simp [State.takeBatch]

@[simp] theorem State.park_bi (s : State) :
    (s.park).bi = s.bi := by
  simp only [State.park]
  split <;> simp
@[simp] theorem State.park_rt (s : State) :
    (s.park).rt = s.rt := by
  simp only [State.park]
  split <;> simp
@[simp] theorem State.park_tl (s : State) :
    (s.park).tl = s.tl := by
  simp only [State.park]
  split <;> simp
@[simp] theorem State.park_bc (s : State) :
    (s.park).bc = s.bc := by
  simp only [State.park]
  split <;> simp
@[simp] theorem State.park_mc (s : State) :
    (s.park).mc = s.mc := by
  simp only [State.park]
  split <;> simp
@[simp] theorem State.park_pending (s : State) :
    (s.park).pending = s.pending := by
  simp only [State.park]
  split <;> simp

@[simp] theorem State.unpark_bi (s : State) :
    (s.unpark).bi = s.bi := by
  simp only [State.unpark]
  split <;> simp
@[simp] theorem State.unpark_rt (s : State) :
    (s.unpark).rt = s.rt := by
  simp only [State.unpark]
  split <;> simp
@[simp] theorem State.unpark_tl (s : State) :
    (s.unpark).tl = s.tl := by
  simp only [State.unpark]
  split <;> simp
@[simp] theorem State.unpark_bc (s : State) :
    (s.unpark).bc = s.bc := by
  simp only [State.unpark]
  split <;> simp
@[simp] theorem State.unpark_mc (s : State) :
    (s.unpark).mc = s.mc := by
  simp only [State.unpark]
  split <;> simp
@[simp] theorem State.unpark_pending (s : State) :
    (s.unpark).pending = s.pending := by
  simp only [State.unpark]
  split <;> simp

@[simp] theorem State.followLink_rt (s : State) (link : Addr) :
    (s.followLink link).rt = s.rt := by
  simp only [State.followLink]
  split
  · simp
  · split <;> simp
@[simp] theorem State.followLink_tl (s : State) (link : Addr) :
    (s.followLink link).tl = s.tl := by
  simp only [State.followLink]
  split
  · simp
  · split <;> simp
@[simp] theorem State.followLink_bc (s : State) (link : Addr) :
    (s.followLink link).bc = s.bc := by
  simp only [State.followLink]
  split
  · simp
  · split <;> simp
@[simp] theorem State.followLink_mc (s : State) (link : Addr) :
    (s.followLink link).mc = s.mc := by
  simp only [State.followLink]
  split
  · simp
  · split <;> simp
@[simp] theorem State.followLink_pending (s : State) (link : Addr) :
    (s.followLink link).pending = s.pending := by
  simp only [State.followLink]
  split
  · simp
  · split <;> simp

@[simp] theorem State.beginRetirement_ec (s : State) :
    (s.beginRetirement).ec = s.ec := by
  simp only [State.beginRetirement]
  split
  · split <;> simp
  · simp
@[simp] theorem State.beginRetirement_rt (s : State) :
    (s.beginRetirement).rt = s.rt := by
  simp only [State.beginRetirement]
  split
  · split <;> simp
  · simp
@[simp] theorem State.beginRetirement_tl (s : State) :
    (s.beginRetirement).tl = s.tl := by
  simp only [State.beginRetirement]
  split
  · split <;> simp
  · simp
@[simp] theorem State.beginRetirement_bc (s : State) :
    (s.beginRetirement).bc = s.bc := by
  simp only [State.beginRetirement]
  split
  · split <;> simp
  · simp
@[simp] theorem State.beginRetirement_mc (s : State) :
    (s.beginRetirement).mc = s.mc := by
  simp only [State.beginRetirement]
  split
  · split <;> simp
  · simp
@[simp] theorem State.beginRetirement_pending (s : State) :
    (s.beginRetirement).pending = s.pending := by
  simp only [State.beginRetirement]
  split
  · split <;> simp
  · simp

@[simp] theorem State.reportRetirement_bi (s : State) (b : OpenBatch) :
    (s.reportRetirement b).bi = s.bi := by
  simp only [State.reportRetirement]
  split <;> simp
@[simp] theorem State.reportRetirement_cu (s : State) (b : OpenBatch) :
    (s.reportRetirement b).cu = s.cu := by
  simp only [State.reportRetirement]
  split <;> simp
@[simp] theorem State.reportRetirement_rt (s : State) (b : OpenBatch) :
    (s.reportRetirement b).rt = s.rt := by
  simp only [State.reportRetirement]
  split <;> simp
@[simp] theorem State.reportRetirement_tl (s : State) (b : OpenBatch) :
    (s.reportRetirement b).tl = s.tl := by
  simp only [State.reportRetirement]
  split <;> simp
@[simp] theorem State.reportRetirement_bc (s : State) (b : OpenBatch) :
    (s.reportRetirement b).bc = s.bc := by
  simp only [State.reportRetirement]
  split <;> simp
@[simp] theorem State.reportRetirement_mc (s : State) (b : OpenBatch) :
    (s.reportRetirement b).mc = s.mc := by
  simp only [State.reportRetirement]
  split <;> simp
@[simp] theorem State.reportRetirement_pending (s : State) (b : OpenBatch) :
    (s.reportRetirement b).pending = s.pending := by
  simp only [State.reportRetirement]
  split <;> simp

@[simp] theorem State.releaseRetired_ec (s : State) (b : OpenBatch) :
    (s.releaseRetired b).ec = s.ec := by
  simp only [State.releaseRetired]
  split
  · split <;> simp
  · simp
@[simp] theorem State.releaseRetired_rt (s : State) (b : OpenBatch) :
    (s.releaseRetired b).rt = s.rt := by
  simp only [State.releaseRetired]
  split
  · split <;> simp
  · simp
@[simp] theorem State.releaseRetired_tl (s : State) (b : OpenBatch) :
    (s.releaseRetired b).tl = s.tl := by
  simp only [State.releaseRetired]
  split
  · split <;> simp
  · simp
@[simp] theorem State.releaseRetired_bc (s : State) (b : OpenBatch) :
    (s.releaseRetired b).bc = s.bc := by
  simp only [State.releaseRetired]
  split
  · split <;> simp
  · simp
@[simp] theorem State.releaseRetired_mc (s : State) (b : OpenBatch) :
    (s.releaseRetired b).mc = s.mc := by
  simp only [State.releaseRetired]
  split
  · split <;> simp
  · simp
@[simp] theorem State.releaseRetired_pending (s : State) (b : OpenBatch) :
    (s.releaseRetired b).pending = s.pending := by
  simp only [State.releaseRetired]
  split
  · split <;> simp
  · simp

@[simp] theorem State.retire_rt (s : State) :
    (s.retire).rt = s.rt := by
  simp only [State.retire]
  split <;> simp
@[simp] theorem State.retire_tl (s : State) :
    (s.retire).tl = s.tl := by
  simp only [State.retire]
  split <;> simp
@[simp] theorem State.retire_bc (s : State) :
    (s.retire).bc = s.bc := by
  simp only [State.retire]
  split <;> simp
@[simp] theorem State.retire_mc (s : State) :
    (s.retire).mc = s.mc := by
  simp only [State.retire]
  split <;> simp
@[simp] theorem State.retire_pending (s : State) :
    (s.retire).pending = s.pending := by
  simp only [State.retire]
  split <;> simp

@[simp] theorem State.closeAfterStop_rt (s : State) :
    (s.closeAfterStop).rt = s.rt := by
  simp only [State.closeAfterStop]
  repeat' split
  all_goals simp
@[simp] theorem State.closeAfterStop_tl (s : State) :
    (s.closeAfterStop).tl = s.tl := by
  simp only [State.closeAfterStop]
  repeat' split
  all_goals simp
@[simp] theorem State.closeAfterStop_bc (s : State) :
    (s.closeAfterStop).bc = s.bc := by
  simp only [State.closeAfterStop]
  repeat' split
  all_goals simp
@[simp] theorem State.closeAfterStop_mc (s : State) :
    (s.closeAfterStop).mc = s.mc := by
  simp only [State.closeAfterStop]
  repeat' split
  all_goals simp
@[simp] theorem State.closeAfterStop_pending (s : State) :
    (s.closeAfterStop).pending = s.pending := by
  simp only [State.closeAfterStop]
  repeat' split
  all_goals simp

@[simp] theorem State.closeAfterAbandon_bi (s : State) :
    (s.closeAfterAbandon).bi = s.bi := by
  simp only [State.closeAfterAbandon]
  split <;> rfl
@[simp] theorem State.closeAfterAbandon_rt (s : State) :
    (s.closeAfterAbandon).rt = s.rt := by
  simp only [State.closeAfterAbandon]
  split <;> rfl
@[simp] theorem State.closeAfterAbandon_tl (s : State) :
    (s.closeAfterAbandon).tl = s.tl := by
  simp only [State.closeAfterAbandon]
  split <;> rfl
@[simp] theorem State.closeAfterAbandon_bc (s : State) :
    (s.closeAfterAbandon).bc = s.bc := by
  simp only [State.closeAfterAbandon]
  split <;> rfl
@[simp] theorem State.closeAfterAbandon_mc (s : State) :
    (s.closeAfterAbandon).mc = s.mc := by
  simp only [State.closeAfterAbandon]
  split <;> rfl
@[simp] theorem State.closeAfterAbandon_pending (s : State) :
    (s.closeAfterAbandon).pending = s.pending := by
  simp only [State.closeAfterAbandon]
  split <;> rfl

@[simp] theorem State.closeChain_rt (s : State) :
    (s.closeChain).rt = s.rt := by
  simp only [State.closeChain]
  split
  · simp
  · split <;> simp
@[simp] theorem State.closeChain_tl (s : State) :
    (s.closeChain).tl = s.tl := by
  simp only [State.closeChain]
  split
  · simp
  · split <;> simp
@[simp] theorem State.closeChain_bc (s : State) :
    (s.closeChain).bc = s.bc := by
  simp only [State.closeChain]
  split
  · simp
  · split <;> simp
@[simp] theorem State.closeChain_mc (s : State) :
    (s.closeChain).mc = s.mc := by
  simp only [State.closeChain]
  split
  · simp
  · split <;> simp
@[simp] theorem State.closeChain_pending (s : State) :
    (s.closeChain).pending = s.pending := by
  simp only [State.closeChain]
  split
  · simp
  · split <;> simp

@[simp] theorem State.settleStop_rt (s : State) :
    (s.settleStop).rt = s.rt := by
  simp [State.settleStop]
@[simp] theorem State.settleStop_tl (s : State) :
    (s.settleStop).tl = s.tl := by
  simp [State.settleStop]
@[simp] theorem State.settleStop_bc (s : State) :
    (s.settleStop).bc = s.bc := by
  simp [State.settleStop]
@[simp] theorem State.settleStop_mc (s : State) :
    (s.settleStop).mc = s.mc := by
  simp [State.settleStop]
@[simp] theorem State.settleStop_pending (s : State) :
    (s.settleStop).pending = s.pending := by
  simp [State.settleStop]

@[simp] theorem State.fallIdle_bi (s : State) (b : BankId) :
    (s.fallIdle b).bi = s.bi := by
  simp only [State.fallIdle]
  split
  · split <;> simp
  · simp
@[simp] theorem State.fallIdle_ec (s : State) (b : BankId) :
    (s.fallIdle b).ec = s.ec := by
  simp only [State.fallIdle]
  split
  · split <;> simp
  · simp
@[simp] theorem State.fallIdle_cu (s : State) (b : BankId) :
    (s.fallIdle b).cu = s.cu := by
  simp only [State.fallIdle]
  split
  · split <;> simp
  · simp
@[simp] theorem State.fallIdle_rt (s : State) (b : BankId) :
    (s.fallIdle b).rt = s.rt := by
  simp only [State.fallIdle]
  split
  · split <;> simp
  · simp
@[simp] theorem State.fallIdle_tl (s : State) (b : BankId) :
    (s.fallIdle b).tl = s.tl := by
  simp only [State.fallIdle]
  split
  · split <;> simp
  · simp
@[simp] theorem State.fallIdle_bc (s : State) (b : BankId) :
    (s.fallIdle b).bc = s.bc := by
  simp only [State.fallIdle]
  split
  · split <;> simp
  · simp
@[simp] theorem State.fallIdle_pending (s : State) (b : BankId) :
    (s.fallIdle b).pending = s.pending := by
  simp only [State.fallIdle]
  split
  · split <;> simp
  · simp

@[simp] theorem State.handOver_bi (s : State) (t : Transaction) :
    (s.handOver t).bi = s.bi := by
  simp only [State.handOver]
  split <;> rfl
@[simp] theorem State.handOver_ec (s : State) (t : Transaction) :
    (s.handOver t).ec = s.ec := by
  simp only [State.handOver]
  split <;> rfl
@[simp] theorem State.handOver_cu (s : State) (t : Transaction) :
    (s.handOver t).cu = s.cu := by
  simp only [State.handOver]
  split <;> rfl
@[simp] theorem State.handOver_rt (s : State) (t : Transaction) :
    (s.handOver t).rt = s.rt := by
  simp only [State.handOver]
  split <;> rfl
@[simp] theorem State.handOver_tl (s : State) (t : Transaction) :
    (s.handOver t).tl = s.tl := by
  simp only [State.handOver]
  split <;> rfl
@[simp] theorem State.handOver_bc (s : State) (t : Transaction) :
    (s.handOver t).bc = s.bc := by
  simp only [State.handOver]
  split <;> rfl
@[simp] theorem State.handOver_pending (s : State) (t : Transaction) :
    (s.handOver t).pending = s.pending := by
  simp only [State.handOver]
  split <;> rfl

@[simp] theorem State.handSweepWrite_bi (s : State) :
    (s.handSweepWrite).bi = s.bi := by
  simp [State.handSweepWrite]
@[simp] theorem State.handSweepWrite_cu (s : State) :
    (s.handSweepWrite).cu = s.cu := by
  simp [State.handSweepWrite]
@[simp] theorem State.handSweepWrite_rt (s : State) :
    (s.handSweepWrite).rt = s.rt := by
  simp [State.handSweepWrite]
@[simp] theorem State.handSweepWrite_tl (s : State) :
    (s.handSweepWrite).tl = s.tl := by
  simp [State.handSweepWrite]
@[simp] theorem State.handSweepWrite_bc (s : State) :
    (s.handSweepWrite).bc = s.bc := by
  simp [State.handSweepWrite]
@[simp] theorem State.handSweepWrite_pending (s : State) :
    (s.handSweepWrite).pending = s.pending := by
  simp [State.handSweepWrite]

theorem State.pumpSweep_frame (n : Nat) (s : State) :
    (State.pumpSweep n s).bi = s.bi ∧ (State.pumpSweep n s).cu = s.cu
      ∧ (State.pumpSweep n s).rt = s.rt ∧ (State.pumpSweep n s).tl = s.tl
      ∧ (State.pumpSweep n s).bc = s.bc ∧ (State.pumpSweep n s).pending = s.pending := by
  induction n generalizing s with
  | zero => simp [State.pumpSweep]
  | succ n ih =>
    simp only [State.pumpSweep]
    split
    · have h := ih s.handSweepWrite
      simpa using h
    · simp

@[simp] theorem State.pumpSweep_bi (n : Nat) (s : State) :
    (State.pumpSweep n s).bi = s.bi := (State.pumpSweep_frame n s).1

@[simp] theorem State.pumpSweep_cu (n : Nat) (s : State) :
    (State.pumpSweep n s).cu = s.cu := (State.pumpSweep_frame n s).2.1

@[simp] theorem State.pumpSweep_rt (n : Nat) (s : State) :
    (State.pumpSweep n s).rt = s.rt := (State.pumpSweep_frame n s).2.2.1

@[simp] theorem State.pumpSweep_tl (n : Nat) (s : State) :
    (State.pumpSweep n s).tl = s.tl := (State.pumpSweep_frame n s).2.2.2.1

@[simp] theorem State.pumpSweep_bc (n : Nat) (s : State) :
    (State.pumpSweep n s).bc = s.bc := (State.pumpSweep_frame n s).2.2.2.2.1

@[simp] theorem State.pumpSweep_pending (n : Nat) (s : State) :
    (State.pumpSweep n s).pending = s.pending := (State.pumpSweep_frame n s).2.2.2.2.2

@[simp] theorem State.continueSweep_bi (s : State) :
    (s.continueSweep).bi = s.bi := by
  simp [State.continueSweep]
@[simp] theorem State.continueSweep_cu (s : State) :
    (s.continueSweep).cu = s.cu := by
  simp [State.continueSweep]
@[simp] theorem State.continueSweep_rt (s : State) :
    (s.continueSweep).rt = s.rt := by
  simp [State.continueSweep]
@[simp] theorem State.continueSweep_tl (s : State) :
    (s.continueSweep).tl = s.tl := by
  simp [State.continueSweep]
@[simp] theorem State.continueSweep_bc (s : State) :
    (s.continueSweep).bc = s.bc := by
  simp [State.continueSweep]
@[simp] theorem State.continueSweep_pending (s : State) :
    (s.continueSweep).pending = s.pending := by
  simp [State.continueSweep]

@[simp] theorem State.acceptWaiting_bi (s : State) (b : BankId) :
    (s.acceptWaiting b).bi = s.bi := by
  simp only [State.acceptWaiting]
  repeat' split
  all_goals simp
@[simp] theorem State.acceptWaiting_cu (s : State) (b : BankId) :
    (s.acceptWaiting b).cu = s.cu := by
  simp only [State.acceptWaiting]
  repeat' split
  all_goals simp
@[simp] theorem State.acceptWaiting_rt (s : State) (b : BankId) :
    (s.acceptWaiting b).rt = s.rt := by
  simp only [State.acceptWaiting]
  repeat' split
  all_goals simp
@[simp] theorem State.acceptWaiting_tl (s : State) (b : BankId) :
    (s.acceptWaiting b).tl = s.tl := by
  simp only [State.acceptWaiting]
  repeat' split
  all_goals simp
@[simp] theorem State.acceptWaiting_bc (s : State) (b : BankId) :
    (s.acceptWaiting b).bc = s.bc := by
  simp only [State.acceptWaiting]
  repeat' split
  all_goals simp
@[simp] theorem State.acceptWaiting_pending (s : State) (b : BankId) :
    (s.acceptWaiting b).pending = s.pending := by
  simp only [State.acceptWaiting]
  repeat' split
  all_goals simp

@[simp] theorem State.leaveQueue_bi (s : State) (b : BankId) (age : Nat) :
    (s.leaveQueue b age).bi = s.bi := by
  simp [State.leaveQueue]
@[simp] theorem State.leaveQueue_cu (s : State) (b : BankId) (age : Nat) :
    (s.leaveQueue b age).cu = s.cu := by
  simp [State.leaveQueue]
@[simp] theorem State.leaveQueue_rt (s : State) (b : BankId) (age : Nat) :
    (s.leaveQueue b age).rt = s.rt := by
  simp [State.leaveQueue]
@[simp] theorem State.leaveQueue_tl (s : State) (b : BankId) (age : Nat) :
    (s.leaveQueue b age).tl = s.tl := by
  simp [State.leaveQueue]
@[simp] theorem State.leaveQueue_bc (s : State) (b : BankId) (age : Nat) :
    (s.leaveQueue b age).bc = s.bc := by
  simp [State.leaveQueue]
@[simp] theorem State.leaveQueue_pending (s : State) (b : BankId) (age : Nat) :
    (s.leaveQueue b age).pending = s.pending := by
  simp [State.leaveQueue]

theorem State.foldl_handOver_frame (l : List Transaction) (s : State) :
    (l.foldl State.handOver s).bi = s.bi ∧ (l.foldl State.handOver s).ec = s.ec
      ∧ (l.foldl State.handOver s).cu = s.cu ∧ (l.foldl State.handOver s).rt = s.rt
      ∧ (l.foldl State.handOver s).tl = s.tl ∧ (l.foldl State.handOver s).bc = s.bc
      ∧ (l.foldl State.handOver s).pending = s.pending := by
  induction l generalizing s with
  | nil => simp
  | cons t l ih => simpa using ih (s.handOver t)

@[simp] theorem State.resumeAccepting_bi (s : State) : s.resumeAccepting.bi = s.bi := by
  simp only [State.resumeAccepting]
  split
  · rw [State.continueSweep_bi]; exact (State.foldl_handOver_frame _ _).1
  · rfl

@[simp] theorem State.resumeAccepting_cu (s : State) : s.resumeAccepting.cu = s.cu := by
  simp only [State.resumeAccepting]
  split
  · rw [State.continueSweep_cu]; exact (State.foldl_handOver_frame _ _).2.2.1
  · rfl

@[simp] theorem State.resumeAccepting_rt (s : State) : s.resumeAccepting.rt = s.rt := by
  simp only [State.resumeAccepting]
  split
  · rw [State.continueSweep_rt]; exact (State.foldl_handOver_frame _ _).2.2.2.1
  · rfl

@[simp] theorem State.resumeAccepting_tl (s : State) : s.resumeAccepting.tl = s.tl := by
  simp only [State.resumeAccepting]
  split
  · rw [State.continueSweep_tl]; exact (State.foldl_handOver_frame _ _).2.2.2.2.1
  · rfl

@[simp] theorem State.resumeAccepting_bc (s : State) : s.resumeAccepting.bc = s.bc := by
  simp only [State.resumeAccepting]
  split
  · rw [State.continueSweep_bc]; exact (State.foldl_handOver_frame _ _).2.2.2.2.2.1
  · rfl

@[simp] theorem State.resumeAccepting_pending (s : State) : s.resumeAccepting.pending = s.pending := by
  simp only [State.resumeAccepting]
  split
  · rw [State.continueSweep_pending]; exact (State.foldl_handOver_frame _ _).2.2.2.2.2.2
  · rfl

@[simp] theorem State.enterRunning_rt (s : State) :
    (s.enterRunning).rt = s.rt := by
  simp [State.enterRunning]
@[simp] theorem State.enterRunning_tl (s : State) :
    (s.enterRunning).tl = s.tl := by
  simp [State.enterRunning]
@[simp] theorem State.enterRunning_bc (s : State) :
    (s.enterRunning).bc = s.bc := by
  simp [State.enterRunning]
@[simp] theorem State.enterRunning_mc (s : State) :
    (s.enterRunning).mc = s.mc := by
  simp [State.enterRunning]
@[simp] theorem State.enterRunning_pending (s : State) :
    (s.enterRunning).pending = s.pending := by
  simp [State.enterRunning]

@[simp] theorem State.endSweep_rt (s : State) :
    (s.endSweep).rt = s.rt := by
  simp only [State.endSweep]
  split <;> simp
@[simp] theorem State.endSweep_tl (s : State) :
    (s.endSweep).tl = s.tl := by
  simp only [State.endSweep]
  split <;> simp
@[simp] theorem State.endSweep_bc (s : State) :
    (s.endSweep).bc = s.bc := by
  simp only [State.endSweep]
  split <;> simp
@[simp] theorem State.endSweep_mc (s : State) :
    (s.endSweep).mc = s.mc := by
  simp only [State.endSweep]
  split <;> simp
@[simp] theorem State.endSweep_pending (s : State) :
    (s.endSweep).pending = s.pending := by
  simp only [State.endSweep]
  split <;> simp

@[simp] theorem State.checkSweepEnd_rt (s : State) :
    (s.checkSweepEnd).rt = s.rt := by
  simp only [State.checkSweepEnd]
  split <;> simp
@[simp] theorem State.checkSweepEnd_tl (s : State) :
    (s.checkSweepEnd).tl = s.tl := by
  simp only [State.checkSweepEnd]
  split <;> simp
@[simp] theorem State.checkSweepEnd_bc (s : State) :
    (s.checkSweepEnd).bc = s.bc := by
  simp only [State.checkSweepEnd]
  split <;> simp
@[simp] theorem State.checkSweepEnd_mc (s : State) :
    (s.checkSweepEnd).mc = s.mc := by
  simp only [State.checkSweepEnd]
  split <;> simp
@[simp] theorem State.checkSweepEnd_pending (s : State) :
    (s.checkSweepEnd).pending = s.pending := by
  simp only [State.checkSweepEnd]
  split <;> simp

@[simp] theorem State.sweepWriteEnded_rt (s : State) :
    (s.sweepWriteEnded).rt = s.rt := by
  simp [State.sweepWriteEnded]
@[simp] theorem State.sweepWriteEnded_tl (s : State) :
    (s.sweepWriteEnded).tl = s.tl := by
  simp [State.sweepWriteEnded]
@[simp] theorem State.sweepWriteEnded_bc (s : State) :
    (s.sweepWriteEnded).bc = s.bc := by
  simp [State.sweepWriteEnded]
@[simp] theorem State.sweepWriteEnded_mc (s : State) :
    (s.sweepWriteEnded).mc = s.mc := by
  simp [State.sweepWriteEnded]
@[simp] theorem State.sweepWriteEnded_pending (s : State) :
    (s.sweepWriteEnded).pending = s.pending := by
  simp [State.sweepWriteEnded]

@[simp] theorem State.poisonBucket_bi (s : State) (b : Bucket) (reason : PoisonReason) :
    (s.poisonBucket b reason).bi = s.bi := by
  simp [State.poisonBucket]
@[simp] theorem State.poisonBucket_cu (s : State) (b : Bucket) (reason : PoisonReason) :
    (s.poisonBucket b reason).cu = s.cu := by
  simp [State.poisonBucket]
@[simp] theorem State.poisonBucket_rt (s : State) (b : Bucket) (reason : PoisonReason) :
    (s.poisonBucket b reason).rt = s.rt := by
  simp [State.poisonBucket]
@[simp] theorem State.poisonBucket_tl (s : State) (b : Bucket) (reason : PoisonReason) :
    (s.poisonBucket b reason).tl = s.tl := by
  simp [State.poisonBucket]
@[simp] theorem State.poisonBucket_mc (s : State) (b : Bucket) (reason : PoisonReason) :
    (s.poisonBucket b reason).mc = s.mc := by
  simp [State.poisonBucket]
@[simp] theorem State.poisonBucket_pending (s : State) (b : Bucket) (reason : PoisonReason) :
    (s.poisonBucket b reason).pending = s.pending := by
  simp [State.poisonBucket]

@[simp] theorem State.unlist_bi (s : State) (b : Bucket) :
    (s.unlist b).bi = s.bi := by
  simp only [State.unlist]
  split <;> simp
@[simp] theorem State.unlist_cu (s : State) (b : Bucket) :
    (s.unlist b).cu = s.cu := by
  simp only [State.unlist]
  split <;> simp
@[simp] theorem State.unlist_rt (s : State) (b : Bucket) :
    (s.unlist b).rt = s.rt := by
  simp only [State.unlist]
  split <;> simp
@[simp] theorem State.unlist_tl (s : State) (b : Bucket) :
    (s.unlist b).tl = s.tl := by
  simp only [State.unlist]
  split <;> simp
@[simp] theorem State.unlist_mc (s : State) (b : Bucket) :
    (s.unlist b).mc = s.mc := by
  simp only [State.unlist]
  split <;> simp
@[simp] theorem State.unlist_pending (s : State) (b : Bucket) :
    (s.unlist b).pending = s.pending := by
  simp only [State.unlist]
  split <;> simp

@[simp] theorem State.checkDiscard_rt (s : State) :
    (s.checkDiscard).rt = s.rt := by
  simp only [State.checkDiscard]
  split
  · split <;> simp
  · simp
@[simp] theorem State.checkDiscard_tl (s : State) :
    (s.checkDiscard).tl = s.tl := by
  simp only [State.checkDiscard]
  split
  · split <;> simp
  · simp
@[simp] theorem State.checkDiscard_bc (s : State) :
    (s.checkDiscard).bc = s.bc := by
  simp only [State.checkDiscard]
  split
  · split <;> simp
  · simp
@[simp] theorem State.checkDiscard_pending (s : State) :
    (s.checkDiscard).pending = s.pending := by
  simp only [State.checkDiscard]
  split
  · split <;> simp
  · simp

@[simp] theorem State.handLineWrite_bi (s : State) (i : SetId) (w : Way) :
    (s.handLineWrite i w).bi = s.bi := by
  simp [State.handLineWrite]
@[simp] theorem State.handLineWrite_ec (s : State) (i : SetId) (w : Way) :
    (s.handLineWrite i w).ec = s.ec := by
  simp [State.handLineWrite]
@[simp] theorem State.handLineWrite_cu (s : State) (i : SetId) (w : Way) :
    (s.handLineWrite i w).cu = s.cu := by
  simp [State.handLineWrite]
@[simp] theorem State.handLineWrite_rt (s : State) (i : SetId) (w : Way) :
    (s.handLineWrite i w).rt = s.rt := by
  simp [State.handLineWrite]
@[simp] theorem State.handLineWrite_tl (s : State) (i : SetId) (w : Way) :
    (s.handLineWrite i w).tl = s.tl := by
  simp [State.handLineWrite]
@[simp] theorem State.handLineWrite_bc (s : State) (i : SetId) (w : Way) :
    (s.handLineWrite i w).bc = s.bc := by
  simp [State.handLineWrite]
@[simp] theorem State.handLineWrite_pending (s : State) (i : SetId) (w : Way) :
    (s.handLineWrite i w).pending = s.pending := by
  simp [State.handLineWrite]

@[simp] theorem State.modifyBack_bi (s : State) (i : SetId) (w : Way) (im : Image) :
    (s.modifyBack i w im).bi = s.bi := rfl
@[simp] theorem State.modifyBack_ec (s : State) (i : SetId) (w : Way) (im : Image) :
    (s.modifyBack i w im).ec = s.ec := rfl
@[simp] theorem State.modifyBack_cu (s : State) (i : SetId) (w : Way) (im : Image) :
    (s.modifyBack i w im).cu = s.cu := rfl
@[simp] theorem State.modifyBack_rt (s : State) (i : SetId) (w : Way) (im : Image) :
    (s.modifyBack i w im).rt = s.rt := rfl
@[simp] theorem State.modifyBack_tl (s : State) (i : SetId) (w : Way) (im : Image) :
    (s.modifyBack i w im).tl = s.tl := rfl
@[simp] theorem State.modifyBack_mc (s : State) (i : SetId) (w : Way) (im : Image) :
    (s.modifyBack i w im).mc = s.mc := rfl
@[simp] theorem State.modifyBack_pending (s : State) (i : SetId) (w : Way) (im : Image) :
    (s.modifyBack i w im).pending = s.pending := rfl

@[simp] theorem State.modifyThrough_bi (s : State) (i : SetId) (w : Way) (k : SlotId) (im : Image) :
    (s.modifyThrough i w k im).bi = s.bi := by
  simp only [State.modifyThrough]
  split <;> simp
@[simp] theorem State.modifyThrough_cu (s : State) (i : SetId) (w : Way) (k : SlotId) (im : Image) :
    (s.modifyThrough i w k im).cu = s.cu := by
  simp only [State.modifyThrough]
  split <;> simp
@[simp] theorem State.modifyThrough_rt (s : State) (i : SetId) (w : Way) (k : SlotId) (im : Image) :
    (s.modifyThrough i w k im).rt = s.rt := by
  simp only [State.modifyThrough]
  split <;> simp
@[simp] theorem State.modifyThrough_tl (s : State) (i : SetId) (w : Way) (k : SlotId) (im : Image) :
    (s.modifyThrough i w k im).tl = s.tl := by
  simp only [State.modifyThrough]
  split <;> simp
@[simp] theorem State.modifyThrough_pending (s : State) (i : SetId) (w : Way) (k : SlotId) (im : Image) :
    (s.modifyThrough i w k im).pending = s.pending := by
  simp only [State.modifyThrough]
  split <;> simp

@[simp] theorem State.castout_bi (s : State) (i : SetId) (w : Way) (k : SlotId) :
    (s.castout i w k).bi = s.bi := by
  simp [State.castout]
@[simp] theorem State.castout_cu (s : State) (i : SetId) (w : Way) (k : SlotId) :
    (s.castout i w k).cu = s.cu := by
  simp [State.castout]
@[simp] theorem State.castout_rt (s : State) (i : SetId) (w : Way) (k : SlotId) :
    (s.castout i w k).rt = s.rt := by
  simp [State.castout]
@[simp] theorem State.castout_tl (s : State) (i : SetId) (w : Way) (k : SlotId) :
    (s.castout i w k).tl = s.tl := by
  simp [State.castout]
@[simp] theorem State.castout_pending (s : State) (i : SetId) (w : Way) (k : SlotId) :
    (s.castout i w k).pending = s.pending := by
  simp [State.castout]

@[simp] theorem State.allocateFill_bi (s : State) (i : SetId) (w : Way) (k : SlotId) (b : Bucket) :
    (s.allocateFill i w k b).bi = s.bi := by
  simp [State.allocateFill]
@[simp] theorem State.allocateFill_cu (s : State) (i : SetId) (w : Way) (k : SlotId) (b : Bucket) :
    (s.allocateFill i w k b).cu = s.cu := by
  simp [State.allocateFill]
@[simp] theorem State.allocateFill_rt (s : State) (i : SetId) (w : Way) (k : SlotId) (b : Bucket) :
    (s.allocateFill i w k b).rt = s.rt := by
  simp [State.allocateFill]
@[simp] theorem State.allocateFill_tl (s : State) (i : SetId) (w : Way) (k : SlotId) (b : Bucket) :
    (s.allocateFill i w k b).tl = s.tl := by
  simp [State.allocateFill]
@[simp] theorem State.allocateFill_pending (s : State) (i : SetId) (w : Way) (k : SlotId) (b : Bucket) :
    (s.allocateFill i w k b).pending = s.pending := by
  simp [State.allocateFill]

@[simp] theorem State.reportResult_ec (s : State) (k : SlotId) :
    (s.reportResult k).ec = s.ec := by
  simp only [State.reportResult]
  split <;> rfl
@[simp] theorem State.reportResult_cu (s : State) (k : SlotId) :
    (s.reportResult k).cu = s.cu := by
  simp only [State.reportResult]
  split <;> rfl
@[simp] theorem State.reportResult_tl (s : State) (k : SlotId) :
    (s.reportResult k).tl = s.tl := by
  simp only [State.reportResult]
  split <;> rfl
@[simp] theorem State.reportResult_bc (s : State) (k : SlotId) :
    (s.reportResult k).bc = s.bc := by
  simp only [State.reportResult]
  split <;> rfl
@[simp] theorem State.reportResult_mc (s : State) (k : SlotId) :
    (s.reportResult k).mc = s.mc := by
  simp only [State.reportResult]
  split <;> rfl
@[simp] theorem State.reportResult_pending (s : State) (k : SlotId) :
    (s.reportResult k).pending = s.pending := by
  simp only [State.reportResult]
  split <;> rfl

@[simp] theorem State.startStore_tl (s : State) (k : SlotId) :
    (s.startStore k).tl = s.tl := by
  simp only [State.startStore]
  split
  · simp
  · split <;> simp
@[simp] theorem State.startStore_bc (s : State) (k : SlotId) :
    (s.startStore k).bc = s.bc := by
  simp only [State.startStore]
  split
  · simp
  · split <;> simp
@[simp] theorem State.startStore_mc (s : State) (k : SlotId) :
    (s.startStore k).mc = s.mc := by
  simp only [State.startStore]
  split
  · simp
  · split <;> simp
@[simp] theorem State.startStore_pending (s : State) (k : SlotId) :
    (s.startStore k).pending = s.pending := by
  simp only [State.startStore]
  split
  · simp
  · split <;> simp

@[simp] theorem State.finishSlot_tl (s : State) (k : SlotId) (r : Result) :
    (s.finishSlot k r).tl = s.tl := by
  simp only [State.finishSlot]
  split <;> simp
@[simp] theorem State.finishSlot_bc (s : State) (k : SlotId) (r : Result) :
    (s.finishSlot k r).bc = s.bc := by
  simp only [State.finishSlot]
  split <;> simp
@[simp] theorem State.finishSlot_mc (s : State) (k : SlotId) (r : Result) :
    (s.finishSlot k r).mc = s.mc := by
  simp only [State.finishSlot]
  split <;> simp
@[simp] theorem State.finishSlot_pending (s : State) (k : SlotId) (r : Result) :
    (s.finishSlot k r).pending = s.pending := by
  simp only [State.finishSlot]
  split <;> simp

@[simp] theorem State.failBringup_bi (s : State) (cause : FailureCause) :
    (s.failBringup cause).bi = s.bi := by
  simp [State.failBringup]
@[simp] theorem State.failBringup_cu (s : State) (cause : FailureCause) :
    (s.failBringup cause).cu = s.cu := by
  simp [State.failBringup]
@[simp] theorem State.failBringup_rt (s : State) (cause : FailureCause) :
    (s.failBringup cause).rt = s.rt := by
  simp [State.failBringup]
@[simp] theorem State.failBringup_tl (s : State) (cause : FailureCause) :
    (s.failBringup cause).tl = s.tl := by
  simp [State.failBringup]
@[simp] theorem State.failBringup_bc (s : State) (cause : FailureCause) :
    (s.failBringup cause).bc = s.bc := by
  simp [State.failBringup]
@[simp] theorem State.failBringup_pending (s : State) (cause : FailureCause) :
    (s.failBringup cause).pending = s.pending := by
  simp [State.failBringup]

@[simp] theorem State.handProbe_bi (s : State) (i : Nat) (found : List (Option Marker)) :
    (s.handProbe i found).bi = s.bi := by
  simp only [State.handProbe]
  split <;> simp
@[simp] theorem State.handProbe_ec (s : State) (i : Nat) (found : List (Option Marker)) :
    (s.handProbe i found).ec = s.ec := by
  simp only [State.handProbe]
  split <;> simp
@[simp] theorem State.handProbe_cu (s : State) (i : Nat) (found : List (Option Marker)) :
    (s.handProbe i found).cu = s.cu := by
  simp only [State.handProbe]
  split <;> simp
@[simp] theorem State.handProbe_rt (s : State) (i : Nat) (found : List (Option Marker)) :
    (s.handProbe i found).rt = s.rt := by
  simp only [State.handProbe]
  split <;> simp
@[simp] theorem State.handProbe_tl (s : State) (i : Nat) (found : List (Option Marker)) :
    (s.handProbe i found).tl = s.tl := by
  simp only [State.handProbe]
  split <;> simp
@[simp] theorem State.handProbe_bc (s : State) (i : Nat) (found : List (Option Marker)) :
    (s.handProbe i found).bc = s.bc := by
  simp only [State.handProbe]
  split <;> simp
@[simp] theorem State.handProbe_pending (s : State) (i : Nat) (found : List (Option Marker)) :
    (s.handProbe i found).pending = s.pending := by
  simp only [State.handProbe]
  split <;> simp

@[simp] theorem State.patternRead_bi (s : State) (i : Nat) :
    (s.patternRead i).bi = s.bi := rfl
@[simp] theorem State.patternRead_ec (s : State) (i : Nat) :
    (s.patternRead i).ec = s.ec := rfl
@[simp] theorem State.patternRead_cu (s : State) (i : Nat) :
    (s.patternRead i).cu = s.cu := rfl
@[simp] theorem State.patternRead_rt (s : State) (i : Nat) :
    (s.patternRead i).rt = s.rt := rfl
@[simp] theorem State.patternRead_tl (s : State) (i : Nat) :
    (s.patternRead i).tl = s.tl := rfl
@[simp] theorem State.patternRead_bc (s : State) (i : Nat) :
    (s.patternRead i).bc = s.bc := rfl
@[simp] theorem State.patternRead_pending (s : State) (i : Nat) :
    (s.patternRead i).pending = s.pending := rfl

@[simp] theorem State.finishBringup_bi (s : State) (rows : Nat) :
    (s.finishBringup rows).bi = s.bi := by
  simp [State.finishBringup]
@[simp] theorem State.finishBringup_cu (s : State) (rows : Nat) :
    (s.finishBringup rows).cu = s.cu := by
  simp [State.finishBringup]
@[simp] theorem State.finishBringup_rt (s : State) (rows : Nat) :
    (s.finishBringup rows).rt = s.rt := by
  simp [State.finishBringup]
@[simp] theorem State.finishBringup_tl (s : State) (rows : Nat) :
    (s.finishBringup rows).tl = s.tl := by
  simp [State.finishBringup]
@[simp] theorem State.finishBringup_pending (s : State) (rows : Nat) :
    (s.finishBringup rows).pending = s.pending := by
  simp [State.finishBringup]

@[simp] theorem State.illegal_bi (s : State) (code : Byte) :
    (s.illegal code).bi = s.bi := by
  simp [State.illegal]
@[simp] theorem State.illegal_cu (s : State) (code : Byte) :
    (s.illegal code).cu = s.cu := by
  simp [State.illegal]
@[simp] theorem State.illegal_rt (s : State) (code : Byte) :
    (s.illegal code).rt = s.rt := by
  simp [State.illegal]
@[simp] theorem State.illegal_tl (s : State) (code : Byte) :
    (s.illegal code).tl = s.tl := by
  simp [State.illegal]
@[simp] theorem State.illegal_bc (s : State) (code : Byte) :
    (s.illegal code).bc = s.bc := by
  simp [State.illegal]
@[simp] theorem State.illegal_mc (s : State) (code : Byte) :
    (s.illegal code).mc = s.mc := by
  simp [State.illegal]
@[simp] theorem State.illegal_pending (s : State) (code : Byte) :
    (s.illegal code).pending = s.pending := by
  simp [State.illegal]

@[simp] theorem State.refuseStart_bi (s : State) (cause : RefusalCause) :
    (s.refuseStart cause).bi = s.bi := by
  simp [State.refuseStart]
@[simp] theorem State.refuseStart_cu (s : State) (cause : RefusalCause) :
    (s.refuseStart cause).cu = s.cu := by
  simp [State.refuseStart]
@[simp] theorem State.refuseStart_rt (s : State) (cause : RefusalCause) :
    (s.refuseStart cause).rt = s.rt := by
  simp [State.refuseStart]
@[simp] theorem State.refuseStart_tl (s : State) (cause : RefusalCause) :
    (s.refuseStart cause).tl = s.tl := by
  simp [State.refuseStart]
@[simp] theorem State.refuseStart_bc (s : State) (cause : RefusalCause) :
    (s.refuseStart cause).bc = s.bc := by
  simp [State.refuseStart]
@[simp] theorem State.refuseStart_mc (s : State) (cause : RefusalCause) :
    (s.refuseStart cause).mc = s.mc := by
  simp [State.refuseStart]
@[simp] theorem State.refuseStart_pending (s : State) (cause : RefusalCause) :
    (s.refuseStart cause).pending = s.pending := by
  simp [State.refuseStart]

@[simp] theorem State.nudge_rt (s : State) :
    (s.nudge).rt = s.rt := by
  simp only [State.nudge]
  repeat' split
  all_goals simp
@[simp] theorem State.nudge_tl (s : State) :
    (s.nudge).tl = s.tl := by
  simp only [State.nudge]
  repeat' split
  all_goals simp
@[simp] theorem State.nudge_bc (s : State) :
    (s.nudge).bc = s.bc := by
  simp only [State.nudge]
  repeat' split
  all_goals simp
@[simp] theorem State.nudge_mc (s : State) :
    (s.nudge).mc = s.mc := by
  simp only [State.nudge]
  repeat' split
  all_goals simp
@[simp] theorem State.nudge_pending (s : State) :
    (s.nudge).pending = s.pending := by
  simp only [State.nudge]
  repeat' split
  all_goals simp

theorem State.foldl_modifyBank_frame (l : List BankId) (f : BankId → State → Bank → Bank)
    (s : State) : ∃ m, l.foldl (fun t b => t.modifyBank b (f b t)) s = { s with mc := m } := by
  induction l generalizing s with
  | nil => exact ⟨s.mc, rfl⟩
  | cons b l ih =>
    obtain ⟨m, h⟩ := ih (s.modifyBank b (f b s))
    exact ⟨m, h⟩

theorem State.closeOpenBanks_frame (s : State) : ∃ m, s.closeOpenBanks = { s with mc := m } := by
  have key : ∀ (l : List BankId) (s : State),
      ∃ m, l.foldl (fun t b => if (t.bank b).rowOpen.isSome then t.closeBank b else t) s
        = { s with mc := m } := by
    intro l
    induction l with
    | nil => exact fun s => ⟨s.mc, rfl⟩
    | cons b l ih =>
      intro s
      simp only [List.foldl_cons]
      split
      · obtain ⟨m, h⟩ := ih (s.closeBank b)
        exact ⟨m, h⟩
      · exact ih s
  exact key _ s

theorem State.refreshBanks_frame (s : State) : ∃ m, s.refreshBanks = { s with mc := m } := by
  obtain ⟨m, h⟩ := State.foldl_modifyBank_frame allBanks
    (fun _ _ x => { x with state := .refreshing }) s
  exact ⟨_, by rw [State.refreshBanks, h]⟩

/-- A command of the arbiter touches the Memory Controller alone. -/
theorem State.issueChoice_frame (s : State) (c : Choice) : ∃ m, s.issueChoice c = { s with mc := m } := by
  cases c with
  | closeAll =>
    obtain ⟨m, h⟩ := s.closeOpenBanks_frame
    exact ⟨_, by rw [State.issueChoice, h, State.drive]⟩
  | refresh =>
    obtain ⟨m, h⟩ := s.refreshBanks_frame
    exact ⟨_, by rw [State.issueChoice, h, State.drive]⟩
  | close b => exact ⟨_, rfl⟩
  | openRow b r => exact ⟨_, rfl⟩
  | column b age =>
    simp only [State.issueChoice]
    split
    · rename_i a _
      simp only [State.issueColumn, State.markIssued]
      split <;> split <;> first | exact ⟨_, rfl⟩ | (simp only [State.fallIdle]; split <;> [split; skip] <;> exact ⟨_, rfl⟩)
    · exact ⟨s.mc, rfl⟩

theorem State.arbitrate_frame (s : State) : ∃ m, s.arbitrate = { s with mc := m } := by
  simp only [State.arbitrate]
  split
  · exact s.issueChoice_frame _
  · split
    · cases h : State.choose { s with mc := { s.mc with committed := true } } with
      | none => exact ⟨_, rfl⟩
      | some c =>
        obtain ⟨m, h⟩ := State.issueChoice_frame { s with mc := { s.mc with committed := true } } c
        exact ⟨m, by simpa using h⟩
    · exact ⟨s.mc, rfl⟩

@[simp] theorem State.arbitrate_bi (s : State) : s.arbitrate.bi = s.bi := by
  obtain ⟨m, h⟩ := s.arbitrate_frame; rw [h]

@[simp] theorem State.arbitrate_ec (s : State) : s.arbitrate.ec = s.ec := by
  obtain ⟨m, h⟩ := s.arbitrate_frame; rw [h]

@[simp] theorem State.arbitrate_cu (s : State) : s.arbitrate.cu = s.cu := by
  obtain ⟨m, h⟩ := s.arbitrate_frame; rw [h]

@[simp] theorem State.arbitrate_rt (s : State) : s.arbitrate.rt = s.rt := by
  obtain ⟨m, h⟩ := s.arbitrate_frame; rw [h]

@[simp] theorem State.arbitrate_tl (s : State) : s.arbitrate.tl = s.tl := by
  obtain ⟨m, h⟩ := s.arbitrate_frame; rw [h]

@[simp] theorem State.arbitrate_bc (s : State) : s.arbitrate.bc = s.bc := by
  obtain ⟨m, h⟩ := s.arbitrate_frame; rw [h]

@[simp] theorem State.arbitrate_pending (s : State) : s.arbitrate.pending = s.pending := by
  obtain ⟨m, h⟩ := s.arbitrate_frame; rw [h]

end Sys2Proof.Machine
end

