-- ==== Sys2Proof/Laws/Status.lean ====
section
/-! SUPPORT. Status updates, interrupt causes and the status write at the end of an event: which fields of
the Engine Control's record they leave alone, and what they do to the bus. -/

namespace Sys2Proof.Machine

@[simp] theorem State.statusUpdate_ec_engine (s : State) :
    (s.statusUpdate).ec.engine = s.ec.engine := by
  simp only [State.statusUpdate]; split <;> rfl

@[simp] theorem State.statusUpdate_ec_ending (s : State) :
    (s.statusUpdate).ec.ending = s.ec.ending := by
  simp only [State.statusUpdate]; split <;> rfl

@[simp] theorem State.statusUpdate_ec_resumeState (s : State) :
    (s.statusUpdate).ec.resumeState = s.ec.resumeState := by
  simp only [State.statusUpdate]; split <;> rfl

@[simp] theorem State.statusUpdate_ec_stallHostFault (s : State) :
    (s.statusUpdate).ec.stallHostFault = s.ec.stallHostFault := by
  simp only [State.statusUpdate]; split <;> rfl

@[simp] theorem State.statusUpdate_ec_stallBadBatch (s : State) :
    (s.statusUpdate).ec.stallBadBatch = s.ec.stallBadBatch := by
  simp only [State.statusUpdate]; split <;> rfl

@[simp] theorem State.statusUpdate_ec_failureCause (s : State) :
    (s.statusUpdate).ec.failureCause = s.ec.failureCause := by
  simp only [State.statusUpdate]; split <;> rfl

@[simp] theorem State.statusUpdate_ec_refusalCause (s : State) :
    (s.statusUpdate).ec.refusalCause = s.ec.refusalCause := by
  simp only [State.statusUpdate]; split <;> rfl

@[simp] theorem State.statusUpdate_ec_refusedCommand (s : State) :
    (s.statusUpdate).ec.refusedCommand = s.ec.refusedCommand := by
  simp only [State.statusUpdate]; split <;> rfl

@[simp] theorem State.statusUpdate_ec_statusWriteFault (s : State) :
    (s.statusUpdate).ec.statusWriteFault = s.ec.statusWriteFault := by
  simp only [State.statusUpdate]; split <;> rfl

@[simp] theorem State.statusUpdate_ec_statusAddr (s : State) :
    (s.statusUpdate).ec.statusAddr = s.ec.statusAddr := by
  simp only [State.statusUpdate]; split <;> rfl

@[simp] theorem State.statusUpdate_ec_parkEnable (s : State) :
    (s.statusUpdate).ec.parkEnable = s.ec.parkEnable := by
  simp only [State.statusUpdate]; split <;> rfl

@[simp] theorem State.statusUpdate_ec_identity (s : State) :
    (s.statusUpdate).ec.identity = s.ec.identity := by
  simp only [State.statusUpdate]; split <;> rfl

@[simp] theorem State.statusUpdate_ec_counters (s : State) :
    (s.statusUpdate).ec.counters = s.ec.counters := by
  simp only [State.statusUpdate]; split <;> rfl

@[simp] theorem State.statusUpdate_ec_intCause (s : State) :
    (s.statusUpdate).ec.intCause = s.ec.intCause := by
  simp only [State.statusUpdate]; split <;> rfl

@[simp] theorem State.statusUpdate_ec_intMask (s : State) :
    (s.statusUpdate).ec.intMask = s.ec.intMask := by
  simp only [State.statusUpdate]; split <;> rfl

@[simp] theorem State.statusUpdate_ec_lastRetired (s : State) :
    (s.statusUpdate).ec.lastRetired = s.ec.lastRetired := by
  simp only [State.statusUpdate]; split <;> rfl

@[simp] theorem State.statusUpdate_ec_startRead (s : State) :
    (s.statusUpdate).ec.startRead = s.ec.startRead := by
  simp only [State.statusUpdate]; split <;> rfl

@[simp] theorem State.statusUpdate_ec_tableEmpty (s : State) :
    (s.statusUpdate).ec.tableEmpty = s.ec.tableEmpty := by
  simp only [State.statusUpdate]; split <;> rfl

@[simp] theorem State.statusUpdate_ec_chainClosed (s : State) :
    (s.statusUpdate).ec.chainClosed = s.ec.chainClosed := by
  simp only [State.statusUpdate]; split <;> rfl

@[simp] theorem State.statusUpdate_ec_sweep (s : State) :
    (s.statusUpdate).ec.sweep = s.ec.sweep := by
  simp only [State.statusUpdate]; split <;> rfl

@[simp] theorem State.raise_ec_engine (s : State) (cause : BitVec 5) :
    (s.raise cause).ec.engine = s.ec.engine := by
  simp only [State.raise]; split <;> rfl

@[simp] theorem State.raise_ec_ending (s : State) (cause : BitVec 5) :
    (s.raise cause).ec.ending = s.ec.ending := by
  simp only [State.raise]; split <;> rfl

@[simp] theorem State.raise_ec_resumeState (s : State) (cause : BitVec 5) :
    (s.raise cause).ec.resumeState = s.ec.resumeState := by
  simp only [State.raise]; split <;> rfl

@[simp] theorem State.raise_ec_stallHostFault (s : State) (cause : BitVec 5) :
    (s.raise cause).ec.stallHostFault = s.ec.stallHostFault := by
  simp only [State.raise]; split <;> rfl

@[simp] theorem State.raise_ec_stallBadBatch (s : State) (cause : BitVec 5) :
    (s.raise cause).ec.stallBadBatch = s.ec.stallBadBatch := by
  simp only [State.raise]; split <;> rfl

@[simp] theorem State.raise_ec_failureCause (s : State) (cause : BitVec 5) :
    (s.raise cause).ec.failureCause = s.ec.failureCause := by
  simp only [State.raise]; split <;> rfl

@[simp] theorem State.raise_ec_refusalCause (s : State) (cause : BitVec 5) :
    (s.raise cause).ec.refusalCause = s.ec.refusalCause := by
  simp only [State.raise]; split <;> rfl

@[simp] theorem State.raise_ec_refusedCommand (s : State) (cause : BitVec 5) :
    (s.raise cause).ec.refusedCommand = s.ec.refusedCommand := by
  simp only [State.raise]; split <;> rfl

@[simp] theorem State.raise_ec_statusWriteFault (s : State) (cause : BitVec 5) :
    (s.raise cause).ec.statusWriteFault = s.ec.statusWriteFault := by
  simp only [State.raise]; split <;> rfl

@[simp] theorem State.raise_ec_statusAddr (s : State) (cause : BitVec 5) :
    (s.raise cause).ec.statusAddr = s.ec.statusAddr := by
  simp only [State.raise]; split <;> rfl

@[simp] theorem State.raise_ec_parkEnable (s : State) (cause : BitVec 5) :
    (s.raise cause).ec.parkEnable = s.ec.parkEnable := by
  simp only [State.raise]; split <;> rfl

@[simp] theorem State.raise_ec_identity (s : State) (cause : BitVec 5) :
    (s.raise cause).ec.identity = s.ec.identity := by
  simp only [State.raise]; split <;> rfl

@[simp] theorem State.raise_ec_counters (s : State) (cause : BitVec 5) :
    (s.raise cause).ec.counters = s.ec.counters := by
  simp only [State.raise]; split <;> rfl

@[simp] theorem State.raise_ec_intMask (s : State) (cause : BitVec 5) :
    (s.raise cause).ec.intMask = s.ec.intMask := by
  simp only [State.raise]; split <;> rfl

@[simp] theorem State.raise_ec_lastRetired (s : State) (cause : BitVec 5) :
    (s.raise cause).ec.lastRetired = s.ec.lastRetired := by
  simp only [State.raise]; split <;> rfl

@[simp] theorem State.raise_ec_startRead (s : State) (cause : BitVec 5) :
    (s.raise cause).ec.startRead = s.ec.startRead := by
  simp only [State.raise]; split <;> rfl

@[simp] theorem State.raise_ec_tableEmpty (s : State) (cause : BitVec 5) :
    (s.raise cause).ec.tableEmpty = s.ec.tableEmpty := by
  simp only [State.raise]; split <;> rfl

@[simp] theorem State.raise_ec_chainClosed (s : State) (cause : BitVec 5) :
    (s.raise cause).ec.chainClosed = s.ec.chainClosed := by
  simp only [State.raise]; split <;> rfl

@[simp] theorem State.raise_ec_sweep (s : State) (cause : BitVec 5) :
    (s.raise cause).ec.sweep = s.ec.sweep := by
  simp only [State.raise]; split <;> rfl

@[simp] theorem State.closeEvent_ec_engine (s : State) :
    (s.closeEvent).ec.engine = s.ec.engine := by
  simp only [State.closeEvent]; split <;> rfl

@[simp] theorem State.closeEvent_ec_ending (s : State) :
    (s.closeEvent).ec.ending = s.ec.ending := by
  simp only [State.closeEvent]; split <;> rfl

@[simp] theorem State.closeEvent_ec_resumeState (s : State) :
    (s.closeEvent).ec.resumeState = s.ec.resumeState := by
  simp only [State.closeEvent]; split <;> rfl

@[simp] theorem State.closeEvent_ec_stallHostFault (s : State) :
    (s.closeEvent).ec.stallHostFault = s.ec.stallHostFault := by
  simp only [State.closeEvent]; split <;> rfl

@[simp] theorem State.closeEvent_ec_stallBadBatch (s : State) :
    (s.closeEvent).ec.stallBadBatch = s.ec.stallBadBatch := by
  simp only [State.closeEvent]; split <;> rfl

@[simp] theorem State.closeEvent_ec_failureCause (s : State) :
    (s.closeEvent).ec.failureCause = s.ec.failureCause := by
  simp only [State.closeEvent]; split <;> rfl

@[simp] theorem State.closeEvent_ec_refusalCause (s : State) :
    (s.closeEvent).ec.refusalCause = s.ec.refusalCause := by
  simp only [State.closeEvent]; split <;> rfl

@[simp] theorem State.closeEvent_ec_refusedCommand (s : State) :
    (s.closeEvent).ec.refusedCommand = s.ec.refusedCommand := by
  simp only [State.closeEvent]; split <;> rfl

@[simp] theorem State.closeEvent_ec_statusWriteFault (s : State) :
    (s.closeEvent).ec.statusWriteFault = s.ec.statusWriteFault := by
  simp only [State.closeEvent]; split <;> rfl

@[simp] theorem State.closeEvent_ec_statusAddr (s : State) :
    (s.closeEvent).ec.statusAddr = s.ec.statusAddr := by
  simp only [State.closeEvent]; split <;> rfl

@[simp] theorem State.closeEvent_ec_parkEnable (s : State) :
    (s.closeEvent).ec.parkEnable = s.ec.parkEnable := by
  simp only [State.closeEvent]; split <;> rfl

@[simp] theorem State.closeEvent_ec_identity (s : State) :
    (s.closeEvent).ec.identity = s.ec.identity := by
  simp only [State.closeEvent]; split <;> rfl

@[simp] theorem State.closeEvent_ec_counters (s : State) :
    (s.closeEvent).ec.counters = s.ec.counters := by
  simp only [State.closeEvent]; split <;> rfl

@[simp] theorem State.closeEvent_ec_intCause (s : State) :
    (s.closeEvent).ec.intCause = s.ec.intCause := by
  simp only [State.closeEvent]; split <;> rfl

@[simp] theorem State.closeEvent_ec_intMask (s : State) :
    (s.closeEvent).ec.intMask = s.ec.intMask := by
  simp only [State.closeEvent]; split <;> rfl

@[simp] theorem State.closeEvent_ec_lastRetired (s : State) :
    (s.closeEvent).ec.lastRetired = s.ec.lastRetired := by
  simp only [State.closeEvent]; split <;> rfl

@[simp] theorem State.closeEvent_ec_startRead (s : State) :
    (s.closeEvent).ec.startRead = s.ec.startRead := by
  simp only [State.closeEvent]; split <;> rfl

@[simp] theorem State.closeEvent_ec_tableEmpty (s : State) :
    (s.closeEvent).ec.tableEmpty = s.ec.tableEmpty := by
  simp only [State.closeEvent]; split <;> rfl

@[simp] theorem State.closeEvent_ec_chainClosed (s : State) :
    (s.closeEvent).ec.chainClosed = s.ec.chainClosed := by
  simp only [State.closeEvent]; split <;> rfl

@[simp] theorem State.closeEvent_ec_sweep (s : State) :
    (s.closeEvent).ec.sweep = s.ec.sweep := by
  simp only [State.closeEvent]; split <;> rfl

@[simp] theorem State.reportEmpty_ec_engine (s : State) :
    (s.reportEmpty).ec.engine = s.ec.engine := by
  simp only [State.reportEmpty]; split <;> rfl

@[simp] theorem State.reportEmpty_ec_ending (s : State) :
    (s.reportEmpty).ec.ending = s.ec.ending := by
  simp only [State.reportEmpty]; split <;> rfl

@[simp] theorem State.reportEmpty_ec_resumeState (s : State) :
    (s.reportEmpty).ec.resumeState = s.ec.resumeState := by
  simp only [State.reportEmpty]; split <;> rfl

@[simp] theorem State.reportEmpty_ec_stallHostFault (s : State) :
    (s.reportEmpty).ec.stallHostFault = s.ec.stallHostFault := by
  simp only [State.reportEmpty]; split <;> rfl

@[simp] theorem State.reportEmpty_ec_stallBadBatch (s : State) :
    (s.reportEmpty).ec.stallBadBatch = s.ec.stallBadBatch := by
  simp only [State.reportEmpty]; split <;> rfl

@[simp] theorem State.reportEmpty_ec_failureCause (s : State) :
    (s.reportEmpty).ec.failureCause = s.ec.failureCause := by
  simp only [State.reportEmpty]; split <;> rfl

@[simp] theorem State.reportEmpty_ec_refusalCause (s : State) :
    (s.reportEmpty).ec.refusalCause = s.ec.refusalCause := by
  simp only [State.reportEmpty]; split <;> rfl

@[simp] theorem State.reportEmpty_ec_refusedCommand (s : State) :
    (s.reportEmpty).ec.refusedCommand = s.ec.refusedCommand := by
  simp only [State.reportEmpty]; split <;> rfl

@[simp] theorem State.reportEmpty_ec_statusWriteFault (s : State) :
    (s.reportEmpty).ec.statusWriteFault = s.ec.statusWriteFault := by
  simp only [State.reportEmpty]; split <;> rfl

@[simp] theorem State.reportEmpty_ec_statusAddr (s : State) :
    (s.reportEmpty).ec.statusAddr = s.ec.statusAddr := by
  simp only [State.reportEmpty]; split <;> rfl

@[simp] theorem State.reportEmpty_ec_parkEnable (s : State) :
    (s.reportEmpty).ec.parkEnable = s.ec.parkEnable := by
  simp only [State.reportEmpty]; split <;> rfl

@[simp] theorem State.reportEmpty_ec_identity (s : State) :
    (s.reportEmpty).ec.identity = s.ec.identity := by
  simp only [State.reportEmpty]; split <;> rfl

@[simp] theorem State.reportEmpty_ec_counters (s : State) :
    (s.reportEmpty).ec.counters = s.ec.counters := by
  simp only [State.reportEmpty]; split <;> rfl

@[simp] theorem State.reportEmpty_ec_status (s : State) :
    (s.reportEmpty).ec.status = s.ec.status := by
  simp only [State.reportEmpty]; split <;> rfl

@[simp] theorem State.reportEmpty_ec_intCause (s : State) :
    (s.reportEmpty).ec.intCause = s.ec.intCause := by
  simp only [State.reportEmpty]; split <;> rfl

@[simp] theorem State.reportEmpty_ec_intMask (s : State) :
    (s.reportEmpty).ec.intMask = s.ec.intMask := by
  simp only [State.reportEmpty]; split <;> rfl

@[simp] theorem State.reportEmpty_ec_lastRetired (s : State) :
    (s.reportEmpty).ec.lastRetired = s.ec.lastRetired := by
  simp only [State.reportEmpty]; split <;> rfl

@[simp] theorem State.reportEmpty_ec_startRead (s : State) :
    (s.reportEmpty).ec.startRead = s.ec.startRead := by
  simp only [State.reportEmpty]; split <;> rfl

@[simp] theorem State.reportEmpty_ec_chainClosed (s : State) :
    (s.reportEmpty).ec.chainClosed = s.ec.chainClosed := by
  simp only [State.reportEmpty]; split <;> rfl

@[simp] theorem State.reportEmpty_ec_sweep (s : State) :
    (s.reportEmpty).ec.sweep = s.ec.sweep := by
  simp only [State.reportEmpty]; split <;> rfl

@[simp] theorem State.unpark_ec_engine (s : State) :
    (s.unpark).ec.engine = s.ec.engine := by
  simp only [State.unpark]; split <;> simp

@[simp] theorem State.unpark_ec_ending (s : State) :
    (s.unpark).ec.ending = s.ec.ending := by
  simp only [State.unpark]; split <;> simp

@[simp] theorem State.unpark_ec_resumeState (s : State) :
    (s.unpark).ec.resumeState = s.ec.resumeState := by
  simp only [State.unpark]; split <;> simp

@[simp] theorem State.unpark_ec_stallHostFault (s : State) :
    (s.unpark).ec.stallHostFault = s.ec.stallHostFault := by
  simp only [State.unpark]; split <;> simp

@[simp] theorem State.unpark_ec_stallBadBatch (s : State) :
    (s.unpark).ec.stallBadBatch = s.ec.stallBadBatch := by
  simp only [State.unpark]; split <;> simp

@[simp] theorem State.unpark_ec_failureCause (s : State) :
    (s.unpark).ec.failureCause = s.ec.failureCause := by
  simp only [State.unpark]; split <;> simp

@[simp] theorem State.unpark_ec_refusalCause (s : State) :
    (s.unpark).ec.refusalCause = s.ec.refusalCause := by
  simp only [State.unpark]; split <;> simp

@[simp] theorem State.unpark_ec_refusedCommand (s : State) :
    (s.unpark).ec.refusedCommand = s.ec.refusedCommand := by
  simp only [State.unpark]; split <;> simp

@[simp] theorem State.unpark_ec_statusWriteFault (s : State) :
    (s.unpark).ec.statusWriteFault = s.ec.statusWriteFault := by
  simp only [State.unpark]; split <;> simp

@[simp] theorem State.unpark_ec_statusAddr (s : State) :
    (s.unpark).ec.statusAddr = s.ec.statusAddr := by
  simp only [State.unpark]; split <;> simp

@[simp] theorem State.unpark_ec_parkEnable (s : State) :
    (s.unpark).ec.parkEnable = s.ec.parkEnable := by
  simp only [State.unpark]; split <;> simp

@[simp] theorem State.unpark_ec_identity (s : State) :
    (s.unpark).ec.identity = s.ec.identity := by
  simp only [State.unpark]; split <;> simp

@[simp] theorem State.unpark_ec_counters (s : State) :
    (s.unpark).ec.counters = s.ec.counters := by
  simp only [State.unpark]; split <;> simp

@[simp] theorem State.unpark_ec_intCause (s : State) :
    (s.unpark).ec.intCause = s.ec.intCause := by
  simp only [State.unpark]; split <;> simp

@[simp] theorem State.unpark_ec_intMask (s : State) :
    (s.unpark).ec.intMask = s.ec.intMask := by
  simp only [State.unpark]; split <;> simp

@[simp] theorem State.unpark_ec_lastRetired (s : State) :
    (s.unpark).ec.lastRetired = s.ec.lastRetired := by
  simp only [State.unpark]; split <;> simp

@[simp] theorem State.unpark_ec_startRead (s : State) :
    (s.unpark).ec.startRead = s.ec.startRead := by
  simp only [State.unpark]; split <;> simp

@[simp] theorem State.unpark_ec_tableEmpty (s : State) :
    (s.unpark).ec.tableEmpty = s.ec.tableEmpty := by
  simp only [State.unpark]; split <;> simp

@[simp] theorem State.unpark_ec_chainClosed (s : State) :
    (s.unpark).ec.chainClosed = s.ec.chainClosed := by
  simp only [State.unpark]; split <;> simp

@[simp] theorem State.unpark_ec_sweep (s : State) :
    (s.unpark).ec.sweep = s.ec.sweep := by
  simp only [State.unpark]; split <;> simp

@[simp] theorem State.unpark_cu_phase (s : State) :
    s.unpark.cu.phase = s.cu.phase := by
  simp only [State.unpark]; split <;> simp

@[simp] theorem State.unpark_cu_nextAddr (s : State) :
    s.unpark.cu.nextAddr = s.cu.nextAddr := by
  simp only [State.unpark]; split <;> simp

@[simp] theorem State.unpark_cu_chainStart (s : State) :
    s.unpark.cu.chainStart = s.cu.chainStart := by
  simp only [State.unpark]; split <;> simp

@[simp] theorem State.unpark_cu_current (s : State) :
    s.unpark.cu.current = s.cu.current := by
  simp only [State.unpark]; split <;> simp

@[simp] theorem State.unpark_cu_anchor (s : State) :
    s.unpark.cu.anchor = s.cu.anchor := by
  simp only [State.unpark]; split <;> simp

@[simp] theorem State.unpark_cu_batches (s : State) :
    s.unpark.cu.batches = s.cu.batches := by
  simp only [State.unpark]; split <;> simp

@[simp] theorem State.unpark_cu_nudgePending (s : State) :
    s.unpark.cu.nudgePending = s.cu.nudgePending := by
  simp only [State.unpark]; split <;> simp

@[simp] theorem State.unpark_cu_retireSeq (s : State) :
    s.unpark.cu.retireSeq = s.cu.retireSeq := by
  simp only [State.unpark]; split <;> simp

@[simp] theorem State.unpark_cu_retirementOutstanding (s : State) :
    s.unpark.cu.retirementOutstanding = s.cu.retirementOutstanding := by
  simp only [State.unpark]; split <;> simp

@[simp] theorem State.unpark_cu_releases (s : State) :
    s.unpark.cu.releases = s.cu.releases := by
  simp only [State.unpark]; split <;> simp

@[simp] theorem State.unpark_cu_releasesWaiting (s : State) :
    s.unpark.cu.releasesWaiting = s.cu.releasesWaiting := by
  simp only [State.unpark]; split <;> simp

@[simp] theorem State.unpark_cu_faulted (s : State) :
    s.unpark.cu.faulted = s.cu.faulted := by
  simp only [State.unpark]; split <;> simp

@[simp] theorem State.unpark_cu_badBatch (s : State) :
    s.unpark.cu.badBatch = s.cu.badBatch := by
  simp only [State.unpark]; split <;> simp

@[simp] theorem State.unpark_cu_given (s : State) :
    s.unpark.cu.given = s.cu.given := by
  simp only [State.unpark]; split <;> simp

@[simp] theorem State.unpark_parked (s : State) : s.unpark.cu.parked = false := by
  simp only [State.unpark]
  split <;> simp_all

/-- With no address known an event of a cause sets it at once. -/
theorem State.raise_intCause_of_none (s : State) (cause : BitVec 5) (h : s.ec.statusAddr = none) :
    (s.raise cause).ec.intCause = s.ec.intCause ||| cause := by
  simp [State.raise, h]

/-- With an address known a cause waits for a status write. -/
theorem State.raise_intCause_of_some (s : State) (cause : BitVec 5)
    (h : s.ec.statusAddr.isSome = true) : (s.raise cause).ec.intCause = s.ec.intCause := by
  simp [State.raise, h]

/-- An event that leaves no write due issues none. -/
theorem State.closeEvent_eq_self {s : State} (h : s.statusDue = false) : s.closeEvent = s := by
  simp [State.closeEvent, h]

/-- The write of the status block becomes outstanding at the known address. -/
theorem State.closeEvent_of_due {s : State} (h : s.statusDue = true) :
    s.closeEvent = s.issueStatus := by
  simp [State.closeEvent, h]

/-- Closing an event leaves no write due. -/
@[simp] theorem State.closeEvent_statusDue (s : State) : s.closeEvent.statusDue = false := by
  by_cases h : s.statusDue = true
  · rw [State.closeEvent_of_due h]
    simp [State.statusDue, State.issueStatus]
  · rw [State.closeEvent_eq_self (by simpa using h)]
    simpa using h

/-- What closing an event adds to the bus: nothing, or one status write. -/
theorem State.closeEvent_accesses (s : State) :
    s.closeEvent.bi.accesses = s.bi.accesses ∨
      s.closeEvent.bi.accesses = s.bi.accesses ++
        [⟨s.bi.nextTag, .statusWrite, s.ec.statusAddr.getD 0, s.statusBlock.length, s.statusBlock,
          true⟩] := by
  simp only [State.closeEvent]
  split
  · right; simp [State.issueStatus]
  · left; rfl

/-- Closing an event keeps every outstanding access. -/
theorem State.closeEvent_keeps (s : State) : s.bi.accesses <+: s.closeEvent.bi.accesses := by
  rcases s.closeEvent_accesses with h | h <;> simp [h]

/-- What closing an event adds to the bus is a status write. -/
theorem State.closeEvent_adds {s : State} {a : BusAccess} (h : a ∈ s.closeEvent.bi.accesses)
    (h' : a ∉ s.bi.accesses) : a.kind = .statusWrite := by
  rcases s.closeEvent_accesses with e | e
  · exact absurd (e ▸ h) h'
  · rw [e, List.mem_append, List.mem_singleton] at h
    rcases h with h | h
    · exact absurd h h'
    · simp [h]

@[simp] theorem State.closeEvent_setupL (s : State) : s.closeEvent.bi.setupL = s.bi.setupL := by
  simp only [State.closeEvent]; split <;> rfl

@[simp] theorem State.closeEvent_setupH (s : State) : s.closeEvent.bi.setupH = s.bi.setupH := by
  simp only [State.closeEvent]; split <;> rfl

/-- A status block is 256 bytes while the poison list is no longer than 32 entries. -/
theorem State.statusBlock_length (s : State) (h : s.bc.poison.length ≤ 32) :
    s.statusBlock.length = 256 := by
  have hp : (poisonBytes s.bc.poison).length = 128 := by
    have : ∀ l : List PoisonEntry, (l.flatMap PoisonEntry.bytes).length = 4 * l.length := by
      intro l
      induction l with
      | nil => rfl
      | cons e l ih => simp [PoisonEntry.bytes, numberBytes, bytesOf, ih]; omega
    simp [poisonBytes, this, zeroBytes, Config.poisonLimit]; omega
  have hi : ∀ i, (identityBytes i).length = 12 := by
    intro i; cases i <;> simp [identityBytes, numberBytes, bytesOf, zeroBytes]
  simp [State.statusBlock, hp, hi, Counters.bytes, numberBytes, bytesOf, zeroBytes]

end Sys2Proof.Machine
end

