-- ==== Sys2Proof/Laws/Words.lean ====
section
/-! SUPPORT. The words of the statements: how the accesses a state awaits, keeps, ends and issues follow
each operation on the bus, and the end of a bus access. -/

namespace Sys2Proof.Machine

/-! ## The access an event ends -/

/-- An awaited access of the event's kind is the one the event ends. -/
theorem State.endedAccess_of_awaits {s : State} {tag : Nat} {a : BusAccess} (h : s.awaits tag a)
    {kind : AccessKind → Bool} (hk : kind a.kind = true) : s.endedAccess tag kind = some a := by
  simp [State.endedAccess, h.1, hk]

/-- The end of an awaited access is its issuer's act on the state without it. -/
theorem State.onEnd_of_awaits {s : State} {tag : Nat} {a : BusAccess} (h : s.awaits tag a)
    {kind : AccessKind → Bool} (hk : kind a.kind = true) (act : BusAccess → State → State) :
    s.onEnd tag kind act = act a (s.endAccess tag) := by
  simp [State.onEnd, State.endedAccess_of_awaits h hk, h.2]

/-- The same for an act with consequences. -/
theorem State.onEndTasks_of_awaits {s : State} {tag : Nat} {a : BusAccess} (h : s.awaits tag a)
    {kind : AccessKind → Bool} (hk : kind a.kind = true)
    (act : BusAccess → State → State × List Task) :
    s.onEndTasks tag kind act = act a (s.endAccess tag) := by
  simp [State.onEndTasks, State.endedAccess_of_awaits h hk, h.2]

/-- The end of an awaited status write. -/
theorem State.onStatusEnd_of_awaits {s : State} {tag : Nat} {a : BusAccess} (h : s.awaits tag a)
    (hk : a.kind = .statusWrite) (act : State → State) :
    s.onStatusEnd tag act = act (s.endAccess tag) := by
  have : s.endedAccess tag (· == .statusWrite) = some a :=
    State.endedAccess_of_awaits h (by simp [hk])
  simp [State.onStatusEnd, this, h.2]

/-- An event whose tag names no access of its kind changes nothing. -/
theorem State.onEnd_of_none {s : State} {tag : Nat} {kind : AccessKind → Bool}
    (h : s.endedAccess tag kind = none) (act : BusAccess → State → State) :
    s.onEnd tag kind act = s := by
  simp [State.onEnd, h]

/-- The access with a tag bears it. -/
theorem State.tag_of_awaits {s : State} {tag : Nat} {a : BusAccess} (h : s.awaits tag a) :
    a.tag = tag := by
  simpa using List.find?_some h.1

/-- What was not outstanding is not outstanding once an access has ended. -/
theorem State.outstanding_endAccess_of_false {s : State} {p : AccessKind → Bool} (tag : Nat)
    (h : s.outstanding p = false) : (s.endAccess tag).outstanding p = false := by
  simp only [State.outstanding, State.endAccess_accesses, List.any_eq_false] at h ⊢
  intro a ha
  exact h a (List.mem_of_mem_filter ha)

/-! ## Accesses kept, ended and issued -/

theorem State.keepsAccesses_of_eq {s t : State} (h : t.bi.accesses = s.bi.accesses) :
    s.keepsAccesses t := by
  simp [State.keepsAccesses, h]

theorem State.keepsAccesses.trans {s t u : State} (h : s.keepsAccesses t)
    (h' : t.keepsAccesses u) : s.keepsAccesses u := List.IsPrefix.trans h h'

theorem State.keepsAccesses_issue (s : State) (kind : AccessKind) (addr : Addr) (size : Nat)
    (data : List Byte) : s.keepsAccesses (s.issue kind addr size data) :=
  List.prefix_append _ _

theorem State.keepsAccesses_closeEvent (s : State) : s.keepsAccesses s.closeEvent :=
  s.closeEvent_keeps

/-- Whatever keeps the accesses of the state without the ended one ends that one. -/
theorem State.keepsAccesses.ends {s t : State} {tag : Nat}
    (h : (s.endAccess tag).keepsAccesses t) : s.endsAccess tag t := h

theorem State.addsOnly_of_subset {s t : State} {p : AccessKind → Bool}
    (h : t.bi.accesses ⊆ s.bi.accesses) : s.addsOnly t p :=
  fun _ ha hn => absurd (h ha) hn

theorem State.addsOnly_of_eq {s t : State} {p : AccessKind → Bool}
    (h : t.bi.accesses = s.bi.accesses) : s.addsOnly t p :=
  State.addsOnly_of_subset (by simp [h])

/-- Ending an access adds none. -/
theorem State.addsOnly_of_endAccess {s t : State} {p : AccessKind → Bool} {tag : Nat}
    (h : (s.endAccess tag).addsOnly t p) : s.addsOnly t p := by
  intro a ha hn
  refine h a ha fun h' => hn ?_
  exact List.mem_of_mem_filter h'

theorem State.addsOnly.trans {s t u : State} {p : AccessKind → Bool} (h : s.addsOnly t p)
    (h' : t.addsOnly u p) : s.addsOnly u p := by
  intro a ha hn
  by_cases hm : a ∈ t.bi.accesses
  · exact h a hm hn
  · exact h' a ha hm

theorem State.addsOnly_issue (s : State) {p : AccessKind → Bool} {kind : AccessKind} (addr : Addr)
    (size : Nat) (data : List Byte) (hp : p kind = true) :
    s.addsOnly (s.issue kind addr size data) p := by
  intro a ha hn
  rw [State.issue_accesses, List.mem_append, List.mem_singleton] at ha
  rcases ha with ha | ha
  · exact absurd ha hn
  · right; simp [ha, hp]

theorem State.addsOnly_closeEvent (s : State) (p : AccessKind → Bool) :
    s.addsOnly s.closeEvent p :=
  fun _ ha hn => .inl (State.closeEvent_adds ha hn)

/-- An access once issued stays issued while accesses are kept. -/
theorem State.hasIssued.mono {t u : State} {kind : AccessKind} {addr : Addr} {size : Nat}
    {data : List Byte} (h : t.hasIssued kind addr size data) (hk : t.keepsAccesses u) :
    u.hasIssued kind addr size data := by
  obtain ⟨a, ha, h⟩ := h
  exact ⟨a, List.IsPrefix.subset hk ha, h⟩

@[simp] theorem State.hasIssued_issue (s : State) (kind : AccessKind) (addr : Addr) (size : Nat)
    (data : List Byte) : (s.issue kind addr size data).hasIssued kind addr size data :=
  ⟨⟨s.bi.nextTag, kind, addr, size, data, true⟩, by simp, by simp⟩

@[simp] theorem State.hasIssued_issueRead (s : State) (kind : AccessKind) (addr : Addr)
    (size : Nat) : (s.issueRead kind addr size).hasIssued kind addr size [] :=
  s.hasIssued_issue kind addr size []

@[simp] theorem State.hasIssued_issueWrite (s : State) (kind : AccessKind) (addr : Addr)
    (data : List Byte) : (s.issueWrite kind addr data).hasIssued kind addr data.length data :=
  s.hasIssued_issue kind addr data.length data

/-- What was issued before an event's end is issued after it. -/
theorem State.hasIssued.closeEvent {t : State} {kind : AccessKind} {addr : Addr} {size : Nat}
    {data : List Byte} (h : t.hasIssued kind addr size data) :
    t.closeEvent.hasIssued kind addr size data :=
  h.mono t.keepsAccesses_closeEvent

/-- A write of the given bytes, with its size as a number. -/
theorem State.hasIssued_issueWrite_of_length (s : State) (kind : AccessKind) (addr : Addr)
    {data : List Byte} {n : Nat} (h : data.length = n) :
    (s.issueWrite kind addr data).hasIssued kind addr n data :=
  h ▸ s.hasIssued_issueWrite kind addr data

/-- The bytes of a result write, a retirement write and the state bytes have these lengths. -/
@[simp] theorem resultBytes_length (r : Result) : (resultBytes r).length = 16 := by
  have : (locationBytes r.location).length = 6 := by
    cases r.location <;> simp [locationBytes, numberBytes, bytesOf, zeroBytes]
  simp [resultBytes, this, numberBytes, bytesOf]

@[simp] theorem retirementBytes_length (q : BitVec 64) (n : Nat) :
    (retirementBytes q n).length = 11 := by
  simp [retirementBytes, numberBytes, bytesOf]

/-! ## Interrupt causes at the end of an event -/

/-- A status write changes nothing the status block shows. -/
@[simp] theorem State.closeEvent_statusBlock (s : State) :
    s.closeEvent.statusBlock = s.statusBlock := by
  simp only [State.closeEvent]
  split <;> rfl

/-- An event whose last state holds the cause raised, and is not held back by a stall report, raises
the cause. -/
theorem State.raisesCause_closeEvent {s w : State} {cause : BitVec 5}
    (addr : w.ec.statusAddr = s.ec.statusAddr)
    (unknown : s.ec.statusAddr = none → w.ec.intCause = s.ec.intCause ||| cause)
    (known : s.ec.statusAddr.isSome = true → w.ec.intCause = s.ec.intCause
      ∧ w.ec.status.owed = .now
      ∧ w.ec.status.waitingCauses = s.ec.status.waitingCauses ||| cause
      ∧ w.ec.status.attachedCauses = s.ec.status.attachedCauses
      ∧ w.ec.status.outstanding = s.ec.status.outstanding
      ∧ ¬(w.ec.engine = .stalled ∧ w.ec.status.stallReportIssued = true)) :
    s.raisesCause w.closeEvent cause := by
  refine ⟨fun h => by simpa using unknown h, fun ad had => ?_⟩
  obtain ⟨h1, h2, h3, h4, h5, h6⟩ := known (by simp [had])
  have had' : w.ec.statusAddr = some ad := addr.trans had
  refine ⟨by simpa using h1, fun ho => ?_, fun ho => ?_⟩
  · have due : w.statusDue = true := by
      have h7 : (w.ec.engine == .stalled && w.ec.status.stallReportIssued) = false := by
        rw [Bool.and_eq_false_iff, beq_eq_false_iff_ne, ← Bool.not_eq_true]
        exact not_and_or.mp h6
      simp [State.statusDue, h2, had', h5, ho, h7]
    refine ⟨?_, ?_, ?_, ?_, ?_⟩
    · simp [State.closeEvent, due, State.issueStatus, h3]
    · simp [State.closeEvent, due, State.issueStatus]
    · simp [State.closeEvent, due, State.issueStatus]
    · simp [State.closeEvent, due, State.issueStatus]
    · rw [State.closeEvent_statusBlock]
      simp only [State.closeEvent, due, State.issueStatus, had', if_true, Option.getD_some]
      exact w.hasIssued_issueWrite .statusWrite ad w.statusBlock
  · have due : w.statusDue = false := by
      have : w.ec.status.outstanding.isNone = false := by
        rw [h5]; cases hh : s.ec.status.outstanding <;> simp_all
      simp [State.statusDue, this]
    simp [State.closeEvent, due, h2, h3, h4, h5]

/-! ## The window and the blocks -/

theorem State.sameWindow.trans {s t u : State} (h : s.sameWindow t) (h' : t.sameWindow u) :
    s.sameWindow u :=
  ⟨h'.1.trans h.1, h'.2.1.trans h.2.1, h'.2.2.1.trans h.2.2.1, h'.2.2.2.trans h.2.2.2⟩

theorem State.sameWindow_closeEvent (s : State) : s.sameWindow s.closeEvent := by
  simp [State.sameWindow]

theorem State.sameTablePath_closeEvent (s : State) : s.sameTablePath s.closeEvent := by
  simp [State.sameTablePath]

end Sys2Proof.Machine
end

