-- ==== Sys2Proof/Laws/Batches.lean ====
section
/-! SUPPORT. The limit of open batches and the header reads it holds back (R97, R98), and the end of every
event under ABANDON (R91, R110, R162). -/

namespace Sys2Proof.Machine

/-! ## Header reads -/

/-- No header read is outstanding or remembered exactly when their number is 0. -/
theorem State.readsHeader_eq_false {s : State} : s.readsHeader = false ↔ s.headerReads = 0 := by
  simp only [State.readsHeader, State.outstanding, State.headerReads, Bool.or_eq_false_iff,
    List.any_eq_false, Nat.add_eq_zero_iff, List.length_eq_zero_iff, List.filter_eq_nil_iff]

/-- The number follows the accesses and the faulted accesses alone. -/
theorem State.headerReads_of_eq {s t : State} (h : t.bi.accesses = s.bi.accesses)
    (h' : t.cu.faulted = s.cu.faulted) : t.headerReads = s.headerReads := by
  simp only [State.headerReads, h, h']

/-- Ending an access adds no header read. -/
theorem State.headerReads_endAccess_le (s : State) (tag : Nat) :
    (s.endAccess tag).headerReads ≤ s.headerReads := by
  simp only [State.headerReads, State.endAccess, List.filter_filter]
  refine Nat.add_le_add_right ?_ _
  rw [← List.countP_eq_length_filter, ← List.countP_eq_length_filter]
  exact List.countP_mono_left fun _ _ h => by simp_all

/-- The end of an awaited header read is one less. -/
theorem State.headerReads_endAccess_lt {s : State} {tag : Nat} {a : BusAccess}
    (h : s.awaits tag a) (hk : a.kind = .headerRead) :
    (s.endAccess tag).headerReads < s.headerReads := by
  have mem : a ∈ s.bi.accesses.filter fun a => a.live && a.kind == .headerRead :=
    List.mem_filter.mpr ⟨List.mem_of_find?_eq_some h.1, by simp [h.2, hk]⟩
  simp only [State.headerReads, State.endAccess]
  refine Nat.add_lt_add_right ?_ _
  rw [List.filter_comm]
  exact List.length_filter_lt_length_iff_exists.mpr ⟨a, mem, by simp [State.tag_of_awaits h]⟩

/-- Issuing any other access adds none. -/
@[simp] theorem State.headerReads_issue (s : State) {kind : AccessKind} (hk : kind ≠ .headerRead)
    (addr : Addr) (size : Nat) (data : List Byte) :
    (s.issue kind addr size data).headerReads = s.headerReads := by
  simp [State.headerReads, State.issue, hk]

/-- Issuing a header read adds one. -/
@[simp] theorem State.headerReads_issue_header (s : State) (addr : Addr) (size : Nat)
    (data : List Byte) :
    (s.issue .headerRead addr size data).headerReads = s.headerReads + 1 := by
  simp [State.headerReads, State.issue]; omega

/-! ## The law of the open batches -/

/-- The law stands where neither the batches nor the header reads have grown. -/
theorem State.batchLaw_of_le {s t : State} (h : s.batchLaw)
    (hb : t.cu.batches.length ≤ s.cu.batches.length) (hr : t.headerReads ≤ s.headerReads)
    (hf : ∀ a ∈ t.rt.faulted, a.kind ≠ .headerRead) : t.batchLaw :=
  ⟨hb.trans h.1, hr.trans h.2.1, fun one => lt_of_le_of_lt hb (h.2.2.1 (one.trans hr)), hf⟩

/-- A refused batch opens none and reads no header. -/
theorem State.batchLaw_refuseBatch {s : State} (h : s.batchLaw) : s.refuseBatch.batchLaw :=
  State.batchLaw_of_le h (by simp [State.refuseBatch])
    (State.headerReads_of_eq (by simp [State.refuseBatch]) (by simp [State.refuseBatch])).le
    (by simpa [State.refuseBatch] using h.2.2.2)

/-- Taking a batch where fewer than 8 are open, and no header read stands, keeps the law (R98). -/
theorem State.batchLaw_takeBatch {s : State} (h : s.batchLaw) (few : s.cu.batches.length < 8)
    (none : s.headerReads = 0) (a : Addr) (d : Block64) : (s.takeBatch a d).batchLaw := by
  have released : ∀ b, (s.release b).cu.batches = s.cu.batches
      ∧ (s.release b).headerReads = s.headerReads ∧ (s.release b).rt = s.rt := by
    intro b
    simp only [State.release]
    split <;> simp [State.issueWrite, State.headerReads, State.issue]
  have follow : s.followAnchor.cu.batches.length = s.cu.batches.length
      ∧ s.followAnchor.headerReads = s.headerReads ∧ s.followAnchor.rt = s.rt := by
    simp only [State.followAnchor]
    split
    · split
      · simp [State.updateBatch, State.headerReads]
      · split
        · simp [released]
        · simp
    · simp
  have taken : ∀ t : State, (t.writeTaken a).cu = t.cu ∧ (t.writeTaken a).rt = t.rt
      ∧ (t.writeTaken a).headerReads = t.headerReads := by
    intro t
    simp only [State.writeTaken]
    split <;> simp [State.issueWrite]
  have reads : (s.takeBatch a d).headerReads = 0 := by
    rw [State.takeBatch, (taken _).2.2, ← none, ← follow.2.1]
    rfl
  refine ⟨?_, by omega, by omega, ?_⟩
  · rw [State.takeBatch, (taken _).1]
    simp only [List.length_append, follow.1, List.length_singleton]
    omega
  · rw [State.takeBatch, (taken _).2.1]
    simpa only [follow.2.2] using h.2.2.2

/-- The arrival of an awaited header keeps the law: it ends the one header read that stood (R97, R98). -/
theorem State.batchLaw_headerArrived {s : State} {tag : Nat} {a : BusAccess} (h : s.batchLaw)
    (ha : s.awaits tag a) (hk : a.kind = .headerRead) (abandoning : s.abandoning = false)
    (stop : s.stopInForce = false) (d : Block64) :
    ((s.endAccess tag).headerArrived a.addr d).batchLaw := by
  have fewer := State.headerReads_endAccess_lt ha hk
  have none : (s.endAccess tag).headerReads = 0 := by have := h.2.1; omega
  have ended : (s.endAccess tag).batchLaw :=
    State.batchLaw_of_le h le_rfl fewer.le h.2.2.2
  have few : s.cu.batches.length < 8 := h.2.2.1 (by omega)
  have abandoning' : (s.endAccess tag).abandoning = false := abandoning
  have stop' : (s.endAccess tag).stopInForce = false := stop
  simp only [State.headerArrived, abandoning', stop', Bool.false_eq_true, if_false]
  split
  · split
    · exact State.batchLaw_takeBatch ended few none a.addr d
    · exact State.batchLaw_refuseBatch ended
  · exact ended

/-- The header read of phase HEADER keeps the law: it issues only where it adds the first one, with fewer
than 8 batches open (R97). -/
theorem State.batchLaw_readHeader {s : State} (h : s.batchLaw) : s.readHeader.batchLaw := by
  simp only [State.readHeader]
  split
  · rename_i few
    split
    · split
      · exact State.batchLaw_refuseBatch h
      · split
        · rename_i _ _ may
          have none : s.headerReads = 0 :=
            State.readsHeader_eq_false.mp (by simpa using (Bool.and_eq_true_iff.mp may).2)
          have fewer : s.cu.batches.length < 8 := 
            of_decide_eq_true (Bool.and_eq_true_iff.mp few).2
          refine ⟨?_, ?_, fun _ => ?_, ?_⟩
          · simpa [State.issueRead] using fewer.le
          · simp [State.issueRead, none]
          · simpa [State.issueRead] using fewer
          · simpa [State.issueRead] using h.2.2.2
        · exact h
    · exact h
  · exact h

/-! ## Under ABANDON -/

/-- The word of the statements for a slot that becomes FREE is the operation. -/
theorem State.freed_eq (s : State) (k : SlotId) : s.freed k = s.freeSlot k := rfl

/-- What an event under ABANDON leaves once both reports are held, before STOPPING completes. -/
theorem State.settleStop_of_abandoning {u : State} (h : u.ec.engine = .stopping)
    (h' : u.ec.ending = .abandon) :
    let closes := u.cu.phase == .ended && !u.outstanding AccessKind.ofChain
    u.settleStop = ({ u with
      cu := if closes then { u.cu with
          phase := .idle, anchor := none, current := none, batches := [], nextAddr := none,
          retirementOutstanding := false, releases := [] } else u.cu
      ec := { u.ec with
        tableEmpty := u.allFree, chainClosed := closes || u.ec.chainClosed } } : State).completeStop := by
  have abandoning : u.reportEmpty.abandoning = true := by
    simp [State.abandoning, State.reportEmpty, h, h']
  have report : u.reportEmpty = { u with ec := { u.ec with tableEmpty := u.allFree } } := by
    simp [State.reportEmpty, h]
  have same : (u.reportEmpty.cu.phase == .ended && !u.reportEmpty.outstanding AccessKind.ofChain)
      = (u.cu.phase == .ended && !u.outstanding AccessKind.ofChain) := by
    simp [State.outstanding]
  simp only [State.settleStop, State.closeChain, abandoning, if_true, State.closeAfterAbandon, same]
  rw [report]
  by_cases closes : (u.cu.phase == .ended && !u.outstanding AccessKind.ofChain) = true
  · simp only [closes, if_true, Bool.true_or]
  · simp only [closes, Bool.false_or]
    rfl

/-- The end of an event under ABANDON, whatever its own effect was. -/
theorem State.drainsAbandoned_settleStop {u : State} (h : u.ec.engine = .stopping)
    (h' : u.ec.ending = .abandon) : u.drainsAbandoned u.settleStop.closeEvent := by
  rw [State.settleStop_of_abandoning h h']
  simp only [State.drainsAbandoned]
  generalize hc : (u.cu.phase == .ended && !u.outstanding AccessKind.ofChain) = closes
  generalize hd : (closes || u.ec.chainClosed) = closed
  generalize hm : (State.mk _ _ _ _ _ _ _ _ : State) = mid
  have bi : mid.bi = u.bi := by subst hm; rfl
  refine ⟨by subst hm; simp, by subst hm; simp, by subst hm; simp, by subst hm; simp,
    by subst hm; simp, by simp [bi], by simp [bi], ?_, ?_, by subst hm; simp, ?_, ?_⟩
  · exact List.IsPrefix.trans (by simp [bi]) mid.completeStop.closeEvent_keeps
  · intro a ha hn
    exact State.closeEvent_adds ha (by simpa [bi] using hn)
  · intro both
    obtain ⟨rfl, free⟩ := Bool.and_eq_true_iff.mp both
    refine ⟨State.raisesCause_closeEvent ?_ ?_ ?_, ?_⟩
    all_goals subst hm
    · simp [State.completeStop, h, free]
    · intro none
      simp [State.completeStop, h, free, State.raise, State.statusUpdate, none, causeState]
    · intro known
      simp [State.completeStop, h, free, State.raise, State.statusUpdate, known, causeState]
    · apply EngineControl.ext <;> simp [State.completeStop, h, free]
  · intro either
    have rest : mid.completeStop = mid := by
      subst hm
      simp only [State.completeStop]
      rw [if_neg]
      simp_all
      grind
    rw [rest]
    subst hm
    apply EngineControl.ext <;> simp

end Sys2Proof.Machine
end

