-- ==== Sys2Proof/Laws/Cascade.lean ====
section
/-! SUPPORT. What settling an event does: nothing beyond the status write when no consequence is left,
one consequence at a time otherwise; and what every consequence leaves alone. -/

namespace Sys2Proof.Machine

@[simp] theorem runTasks_nil (n : Nat) (s : State) : runTasks n [] s = some s := by
  cases n <;> rfl

theorem runTasks_cons (n : Nat) (t : Task) (ts : List Task) (s : State) :
    runTasks (n + 1) (t :: ts) s = runTasks n ((runTask t s).2 ++ ts) (runTask t s).1 := rfl

/-- An event without consequences only closes. -/
@[simp] theorem settle_nil (s : State) : settle (s, []) = some s.closeEvent := by
  simp [settle]

/-- A settled event is its settled consequences, closed. -/
theorem settle_of_run {p : State × List Task} {t : State}
    (h : runTasks Config.cascadeBound p.2 p.1 = some t) : settle p = some t.closeEvent := by
  simp [settle, h]

/-- What every single consequence keeps, all of them keep. -/
theorem runTasks_induction {P : State → Prop} (step : ∀ t s, P s → P (runTask t s).1) :
    ∀ n ts s u, P s → runTasks n ts s = some u → P u := by
  intro n
  induction n with
  | zero =>
    intro ts s u hs h
    cases ts with
    | nil => simp at h; exact h ▸ hs
    | cons t ts => simp [runTasks] at h
  | succ n ih =>
    intro ts s u hs h
    cases ts with
    | nil => simp at h; exact h ▸ hs
    | cons t ts => exact ih _ _ _ (step t s hs) h

/-- What every consequence and the closing of the event keep, the settled event keeps. -/
theorem settle_induction {P : State → Prop} (step : ∀ t s, P s → P (runTask t s).1)
    (close : ∀ s, P s → P s.closeEvent) {p : State × List Task} {u : State} (hp : P p.1)
    (h : settle p = some u) : P u := by
  simp only [settle, Option.map_eq_some_iff] at h
  obtain ⟨v, hv, rfl⟩ := h
  exact close v (runTasks_induction step _ _ _ _ hp hv)

/-- A settled event leaves no status write due. -/
theorem settle_statusDue {p : State × List Task} {u : State} (h : settle p = some u) :
    u.statusDue = false := by
  simp only [settle, Option.map_eq_some_iff] at h
  obtain ⟨v, -, rfl⟩ := h
  exact v.closeEvent_statusDue

@[simp] theorem outcomeOf_some (s : State) : outcomeOf (some s) = .next s := rfl

/-- An event that answers a next state settled in it. -/
theorem outcomeOf_eq_next {o : Option State} {t : State} (h : outcomeOf o = .next t) :
    o = some t := by
  cases o with
  | none => simp [outcomeOf] at h
  | some s => simpa [outcomeOf] using h

/-! ## Consequences that do nothing -/

/-- An empty set wait list is not served. -/
theorem State.retrySet_of_empty {s : State} {i : SetId} (h : (s.cacheSet i).waiting = []) :
    s.retrySet i = (s, []) := by
  simp [State.retrySet, h]

/-- With no fence hold there is no owner to dispatch. -/
theorem State.checkOwner_of_none {s : State} (h : s.rt.hold = none) : s.checkOwner = (s, []) := by
  simp [State.checkOwner, h]

/-- With no flush sweep in progress nothing is examined. -/
theorem State.checkFlush_of_none {s : State} (h : s.bc.flush = none) : s.checkFlush = (s, []) := by
  simp [State.checkFlush, h]

/-- Consideration rests while the record at its point has not arrived. -/
theorem State.considerNext_of_none {s : State}
    (h : ∀ k, s.considerationPoint = some k → (s.slot k).record = none) :
    s.considerNext = (s, []) := by
  simp only [State.considerNext]
  split
  · rename_i k hk
    simp [h k hk]
  · rfl

/-- With no waiting key the key guard releases nobody. -/
theorem State.releaseKey_of_none {s : State} (h : ∀ j : SlotId, (s.slot j).state ≠ .waitingKey)
    (key : Option Key) : s.releaseKey key = [] := by
  have : ∀ x, s.oldestWaiting x = none := by
    intro x
    simp only [State.oldestWaiting, List.find?_eq_none, Bool.and_eq_true, not_and]
    intro j _ hj
    exact absurd (by simpa using hj) (h j)
  cases key <;> simp [State.releaseKey, this]

/-! ## What no consequence touches -/

theorem State.stepOn_pending (s : State) (i : SetId) (w : Way) (k : SlotId) :
    (s.stepOn i w k).1.pending = s.pending := by
  simp only [State.stepOn]
  split
  · simp only [State.applyStep]
    repeat' split
    all_goals simp
  · rfl

theorem State.allocate_pending (s : State) (i : SetId) (w : Way) (k : SlotId) :
    (s.allocate i w k).1.pending = s.pending := by
  simp only [State.allocate, State.allocateWhole]
  split
  · simp [State.stepOn_pending]
  · simp

theorem State.takeLine_pending {s : State} {k : SlotId} {p : State × List Task}
    (h : s.takeLine k = some p) : p.1.pending = s.pending := by
  simp only [State.takeLine] at h
  split at h
  · cases h; exact s.allocate_pending _ _ _
  · cases h; simp
  · cases h

/-- No consequence touches the queue of commands. -/
theorem runTask_pending (t : Task) (s : State) : (runTask t s).1.pending = s.pending := by
  have take : ∀ (u : State) k (v : State) l, v.pending = u.pending →
      ((u.takeLine k).getD (v, l)).1.pending = u.pending := by
    intro u k v l hv
    cases h : u.takeLine k with
    | none => exact hv
    | some p => exact State.takeLine_pending h
  have obtain' : ∀ k, (s.obtainLine k).1.pending = s.pending := by
    intro k
    simp only [State.obtainLine]
    split
    · simp [State.joinWaiting]
    · exact take _ _ _ _ (by simp [State.joinWaiting])
  have hits : ∀ i w k, (s.hit i w k).1.pending = s.pending := by
    intro i w k
    simp only [State.hit]
    split <;> simp
  cases t with
  | arrive k =>
    simp only [runTask, State.arriveVisit, State.arriveRawWrite, State.arriveRepair,
      State.arriveOrdinary]
    repeat' split
    all_goals simp [obtain', hits]
  | refuse k =>
    simp only [runTask, State.refuseVisit]
    repeat' split
    all_goals simp
  | finish k r =>
    simp only [runTask, State.finishRequest]
    split <;> simp
  | dispatch k =>
    simp only [runTask, State.dispatchRequest]
    repeat' split
    all_goals simp [State.setVisiting, State.startFlush]
    have : ∀ (l : List (SetId × Way)) (u : State),
        (l.foldl (fun t p => t.flushLine p.1 p.2) u).pending = u.pending := by
      intro l
      induction l with
      | nil => intro u; rfl
      | cons x l ih =>
        intro u
        rw [List.foldl_cons, ih]
        simp only [State.flushLine]
        split <;> simp
    rw [this]
  | consider =>
    simp only [runTask, State.considerNext, State.treat, State.letIn, State.takeHold,
      State.startLoad]
    repeat' split
    all_goals simp
  | owner =>
    simp only [runTask, State.checkOwner]
    repeat' split
    all_goals simp
  | retry i =>
    simp only [runTask, State.retrySet]
    repeat' split
    all_goals first
      | rfl
      | (simp; done)
      | (rename_i h; simpa using State.takeLine_pending h)
  | rechoose k => exact take _ _ _ _ (by simp)
  | flushCheck =>
    simp only [runTask, State.checkFlush]
    repeat' split
    all_goals simp
  | lineLost i w =>
    simp only [runTask, State.writeFailed]
    repeat' split
    all_goals simp
  | leaveList i w k => simp [runTask, State.leaveWriteList]
  | lookNext i w =>
    simp only [runTask, State.lookAtNext]
    repeat' split
    all_goals simp

/-- A settled event leaves the queue of commands alone. -/
theorem settle_pending {p : State × List Task} {u : State} (h : settle p = some u) :
    u.pending = p.1.pending :=
  settle_induction (P := fun v => v.pending = p.1.pending)
    (fun t v hv => (runTask_pending t v).trans hv) (fun v hv => by simpa using hv) rfl h

end Sys2Proof.Machine
end

