-- ==== Sys2Proof/Laws/Claims.lean ====
section
/-! SUPPORT. The claims of the sets: a line without a claim may be put anywhere, a claim is made only by a
castout, and every consequence keeps the law of the claims (R44, R52, R69). -/

namespace Sys2Proof.Machine

/-! ## One set -/

/-- The law reads the lines alone. -/
theorem CacheSet.claimLaw_of_lines {c d : CacheSet} (h : c.claimLaw) (hl : d.lines = c.lines) :
    d.claimLaw := by
  simpa only [CacheSet.claimLaw, hl] using h

/-- An unclaimed line may take the place of any line. -/
theorem CacheSet.claimLaw_set {c : CacheSet} (h : c.claimLaw) (w : Way) {l : Line}
    (hl : l.claim = none) : ({ c with lines := c.lines.set w l } : CacheSet).claimLaw := by
  have claimed : ∀ v : Way, ((c.lines.set w l)[v]).claim.isSome = true →
      c.lines[v].claim.isSome = true ∧ (c.lines.set w l)[v] = c.lines[v] := by
    intro v hv
    by_cases hvw : v = w
    · subst hvw; simp [hl] at hv
    · have e : (c.lines.set w l)[v] = c.lines[v] := by
        have : w.val ≠ v.val := fun h => hvw (Fin.ext h.symm)
        simp [this]
      exact ⟨e ▸ hv, e⟩
  refine ⟨fun v u hv hu => h.1 v u (claimed v hv).1 (claimed u hu).1, fun v hv => ?_⟩
  have := h.2 v (claimed v hv).1
  simpa only [(claimed v hv).2] using this

/-- In a set without a claim a WRITING line with nothing in its lists may be claimed. -/
theorem CacheSet.claimLaw_claim {c : CacheSet} (h : ∀ v : Way, c.lines[v].claim = none) (w : Way)
    {l : Line} (hs : l.state = .writing) (hw : l.waiters = []) (hc : l.current = [])
    (hn : l.next = []) : ({ c with lines := c.lines.set w l } : CacheSet).claimLaw := by
  have claimed : ∀ v : Way, ((c.lines.set w l)[v]).claim.isSome = true → v = w := by
    intro v hv
    by_contra hvw
    have e : (c.lines.set w l)[v] = c.lines[v] := by
      have : w.val ≠ v.val := fun h => hvw (Fin.ext h.symm)
      simp [this]
    rw [e, h v] at hv
    exact Bool.noConfusion hv
  refine ⟨fun v u hv hu => (claimed v hv).trans (claimed u hu).symm, fun v hv => ?_⟩
  cases claimed v hv
  simp [hs, hw, hc, hn]

/-- A line that is not WRITING is unclaimed. -/
theorem CacheSet.claim_of_state {c : CacheSet} (h : c.claimLaw) {w : Way}
    (hs : c.lines[w].state ≠ .writing) : c.lines[w].claim = none := by
  by_contra hn
  exact hs (h.2 w (Option.isSome_iff_ne_none.mpr hn)).1

/-- A line with a waiter is unclaimed. -/
theorem CacheSet.claim_of_waiters {c : CacheSet} (h : c.claimLaw) {w : Way}
    (hs : c.lines[w].waiters ≠ []) : c.lines[w].claim = none := by
  by_contra hn
  exact hs (h.2 w (Option.isSome_iff_ne_none.mpr hn)).2.1

/-- An empty claim slot: no line is claimed. -/
theorem CacheSet.claim_of_claimed_none {c : CacheSet} (h : c.claimed = none) (w : Way) :
    c.lines[w].claim = none := by
  simp only [CacheSet.claimed, List.find?_eq_none] at h
  simpa using h w (by revert w; decide)

/-- A castout is chosen only in a set without a claim, for an eligible DIRTY line. -/
theorem CacheSet.choose_castout {c : CacheSet} {w : Way} (h : c.choose = .castout w) :
    c.claimed = none ∧ c.lines[w].state = .dirty ∧ c.lines[w].eligible = true := by
  simp only [CacheSet.choose] at h
  split at h
  · cases h
  · split at h
    · cases h
    · split at h
      · cases h
      · rename_i hn
        split at h
        · rename_i hw
          cases h
          have := List.find?_some hw
          simp only [Bool.and_eq_true, beq_iff_eq] at this
          exact ⟨by simpa using hn, this⟩
        · cases h

/-! ## The whole cache -/

theorem State.claimLaw_of_sets {s t : State} (h : s.claimLaw) (hb : t.bc.sets = s.bc.sets) :
    t.claimLaw := by
  intro i
  simpa only [State.cacheSet, hb] using h i

theorem State.claimLaw_of_bc {s t : State} (h : s.claimLaw) (hb : t.bc = s.bc) : t.claimLaw :=
  State.claimLaw_of_sets h (by rw [hb])

theorem State.claimLaw_putSet {s : State} (h : s.claimLaw) (i : SetId) {c : CacheSet}
    (hc : c.claimLaw) : (s.putSet i c).claimLaw := by
  intro j
  by_cases hj : j = i
  · subst hj; simpa using hc
  · rw [State.cacheSet_putSet_of_ne s c hj]; exact h j

theorem State.claimLaw_setLine {s : State} (h : s.claimLaw) (i : SetId) (w : Way) {l : Line}
    (hl : l.claim = none) : (s.setLine i w l).claimLaw :=
  State.claimLaw_putSet h i (CacheSet.claimLaw_set (h i) w hl)

theorem State.claimLaw_touch {s : State} (h : s.claimLaw) (i : SetId) (w : Way) :
    (s.touch i w).claimLaw :=
  State.claimLaw_putSet h i (CacheSet.claimLaw_of_lines (h i) rfl)

theorem State.claimLaw_setWaiting {s : State} (h : s.claimLaw) (i : SetId) (l : List SlotId) :
    (s.setWaiting i l).claimLaw :=
  State.claimLaw_putSet h i (CacheSet.claimLaw_of_lines (h i) rfl)

/-- The order of use moves no line. -/
theorem State.line_touch (s : State) (i j : SetId) (v w : Way) :
    (s.touch i v).line j w = s.line j w := by
  have h : ((s.touch i v).cacheSet j).lines = (s.cacheSet j).lines := by
    simp only [State.touch]
    by_cases hj : j = i
    · subst hj; simp
    · rw [State.cacheSet_putSet_of_ne s _ hj]
  exact congrArg (fun l : Vector Line 4 => l[w]) h

theorem State.line_of_bc {s t : State} (h : t.bc.sets = s.bc.sets) (i : SetId) (w : Way) :
    t.line i w = s.line i w := by
  simp [State.line, State.cacheSet, h]

@[simp] theorem State.unlist_sets (s : State) (b : Bucket) : (s.unlist b).bc.sets = s.bc.sets := by
  simp only [State.unlist]
  split <;> simp

@[simp] theorem State.poisonBucket_sets (s : State) (b : Bucket) (r : PoisonReason) :
    (s.poisonBucket b r).bc.sets = s.bc.sets := by
  simp only [State.poisonBucket]
  split <;> simp

/-! ## Steps, allocation, castout -/

/-- A step on an unclaimed line leaves it unclaimed. -/
theorem State.claimLaw_stepOn {s : State} (h : s.claimLaw) (i : SetId) (w : Way) (k : SlotId)
    (hw : (s.line i w).claim = none) :
    (s.stepOn i w k).1.claimLaw ∧ ((s.stepOn i w k).1.line i w).claim = none := by
  simp only [State.stepOn]
  split
  · rename_i c _
    set u := ((if c.request.kind.replacesImage then s.unlist c.bucket else s).modifySlot k fun x =>
      { x with context := some (tableStep c (s.line i w).image).context }).touch i w with hu
    have sets : (if c.request.kind.replacesImage then s.unlist c.bucket else s).bc.sets
        = s.bc.sets := by
      split <;> simp
    have hul : u.claimLaw := State.claimLaw_touch (State.claimLaw_of_sets h (by simpa using sets)) i w
    have huw : (u.line i w).claim = none := by
      rw [hu, State.line_touch, State.line_of_bc (s := s) (by simpa using sets)]
      exact hw
    simp only [State.applyStep, State.modifyBack, State.modifyThrough, State.modifyLine]
    have keep : ∀ (l : Line) (v : State), v.bc = (u.setLine i w l).bc → l.claim = none →
        v.claimLaw ∧ (v.line i w).claim = none := by
      intro l v hv hl
      refine ⟨State.claimLaw_of_bc (State.claimLaw_setLine hul i w hl) hv, ?_⟩
      rw [State.line_of_bc (s := u.setLine i w l) (by rw [hv]), State.line_setLine_self]
      exact hl
    have stay : ∀ v : State, v.bc = u.bc → v.claimLaw ∧ (v.line i w).claim = none := by
      intro v hv
      exact ⟨State.claimLaw_of_bc hul hv, by rw [State.line_of_bc (s := u) (by rw [hv])]; exact huw⟩
    split
    · split
      · exact keep _ _ rfl huw
      · exact stay _ rfl
    · exact stay _ (by simp)
    · split
      · exact stay _ rfl
      · split
        · have write : ∀ (l : Line) (x : Slot → Slot), l.claim = none →
              (((u.setLine i w l).countThrough.handLineWrite i w).modifySlot k x).claimLaw
                ∧ ((((u.setLine i w l).countThrough.handLineWrite i w).modifySlot k x).line i
                  w).claim = none := fun l x hl => keep l _ (by simp) hl
          split
          · exact write _ _ huw
          · exact write _ _ huw
          · exact keep _ _ rfl huw
        · exact keep _ _ rfl huw
  · exact ⟨h, hw⟩

/-- A request is given a line that carries no claim afterwards. -/
theorem State.claimLaw_allocate {s : State} (h : s.claimLaw) (i : SetId) (w : Way) (k : SlotId) :
    (s.allocate i w k).1.claimLaw := by
  simp only [State.allocate, State.allocateWhole, State.allocateFill]
  split
  · refine (State.claimLaw_stepOn (State.claimLaw_touch (State.claimLaw_setLine
      (State.claimLaw_of_sets h (by simp)) i w rfl) i w) i w k ?_).1
    rw [State.line_touch, State.line_setLine_self]
    rfl
  · have filling : ∀ l : List SlotId, (Line.filling (s.visitBucket k) l).claim = none := fun _ => rfl
    exact State.claimLaw_of_bc (State.claimLaw_setWaiting (State.claimLaw_touch
      (State.claimLaw_setLine h i w (filling (k :: (s.cacheSet i).waiting.filter fun j =>
        s.visitBucket j == s.visitBucket k))) i w) i ((s.cacheSet i).waiting.filter fun j =>
        s.visitBucket j != s.visitBucket k)) (by simp)

/-- A castout claims a line of a set that has no other claim. -/
theorem State.claimLaw_castout {s : State} (h : s.claimLaw) {i : SetId} {w : Way} (k : SlotId)
    (hc : (s.cacheSet i).choose = .castout w) : (s.castout i w k).claimLaw := by
  obtain ⟨hn, -, he⟩ := CacheSet.choose_castout hc
  simp only [Line.eligible, Bool.and_eq_true, List.isEmpty_iff] at he
  exact State.claimLaw_of_bc (State.claimLaw_putSet h i (CacheSet.claimLaw_claim
    (CacheSet.claim_of_claimed_none hn) w (l := { s.line i w with state := .writing, claim := some k })
    rfl he.1.1.1 he.1.1.2 he.1.2)) (by simp [State.castout, State.modifyLine, State.setLine])

theorem State.claimLaw_takeLine {s : State} (h : s.claimLaw) {k : SlotId} {p : State × List Task}
    (hp : s.takeLine k = some p) : p.1.claimLaw := by
  simp only [State.takeLine] at hp
  split at hp
  · cases hp; exact State.claimLaw_allocate h _ _ k
  · rename_i hc; cases hp; exact State.claimLaw_castout h k hc
  · cases hp

/-- A request that takes a line, or does something else that keeps the law. -/
theorem State.claimLaw_takeLine_getD {s v : State} (h : s.claimLaw) (hv : v.claimLaw) (k : SlotId)
    (l : List Task) : ((s.takeLine k).getD (v, l)).1.claimLaw := by
  cases hp : s.takeLine k with
  | none => exact hv
  | some p => exact State.claimLaw_takeLine h hp

/-! ## Every consequence -/

theorem State.claimLaw_hit {s : State} (h : s.claimLaw) (i : SetId) (w : Way) (k : SlotId) :
    (s.hit i w k).1.claimLaw := by
  simp only [State.hit]
  split <;> exact State.claimLaw_setLine h i w rfl

theorem State.claimLaw_obtainLine {s : State} (h : s.claimLaw) (k : SlotId) :
    (s.obtainLine k).1.claimLaw := by
  simp only [State.obtainLine]
  split
  · exact State.claimLaw_setWaiting h _ _
  · exact State.claimLaw_takeLine_getD h (State.claimLaw_setWaiting h _ _) k []

theorem State.claimLaw_writeFailed {s : State} (h : s.claimLaw) (i : SetId) (w : Way) :
    (s.writeFailed i w).1.claimLaw := by
  simp only [State.writeFailed]
  repeat' split
  · exact State.claimLaw_of_bc (State.claimLaw_setLine h i w (l := .empty) rfl) (by simp)
  · exact State.claimLaw_setLine (State.claimLaw_of_sets h (by simp)) i w rfl
  · exact h

/-- The completion of a line's write keeps the law: the claim of a castout ends with it. -/
theorem State.claimLaw_writeCompleted {s : State} (h : s.claimLaw) (i : SetId) (w : Way) :
    (s.writeCompleted i w).1.claimLaw := by
  simp only [State.writeCompleted]
  split
  · split
    · exact State.claimLaw_of_bc (State.claimLaw_setLine h i w (l := .empty) rfl) (by simp)
    · split
      · exact State.claimLaw_allocate (State.claimLaw_setLine h i w rfl) i w _
      · rename_i hc
        have keep : ∀ (l : Line) (v : State), v.bc = (s.setLine i w l).bc →
            l.claim = (s.line i w).claim → v.claimLaw := fun l v hv hl =>
          State.claimLaw_of_bc (State.claimLaw_setLine h i w (hl.trans hc)) hv
        split
        · exact keep _ _ rfl rfl
        · exact h
  · exact h

/-- A request that leaves a write list leaves every claim as it was. -/
theorem State.claimLaw_leaveWriteList {s : State} (h : s.claimLaw) (i : SetId) (w : Way) (k : SlotId) :
    (s.leaveWriteList i w k).1.claimLaw := by
  simp only [State.leaveWriteList, State.modifyLine]
  by_cases hc : (s.line i w).claim = none
  · exact State.claimLaw_setLine (l := { s.line i w with current := _ }) h i w hc
  · have hl : (s.line i w).current = [] :=
      ((h i).2 w (Option.isSome_iff_ne_none.mpr hc)).2.2.1
    have same : { s.line i w with current := (s.line i w).current.filter (· != k) } = s.line i w := by
      rw [hl]
      exact congrArg (fun c => { s.line i w with current := c }) hl.symm
    rw [same]
    exact State.claimLaw_putSet h i (CacheSet.claimLaw_of_lines (h i) (by simp [State.line]))

/-- A REWRITE line is not claimed, so what it does after the release keeps the law. -/
theorem State.claimLaw_lookAtNext {s : State} (h : s.claimLaw) (i : SetId) (w : Way) :
    (s.lookAtNext i w).1.claimLaw := by
  simp only [State.lookAtNext]
  split
  · rename_i hr
    have hc : (s.line i w).claim = none := CacheSet.claim_of_state (h i) (by
      have : (s.line i w).state = .rewrite := by simpa using hr
      simp only [State.line] at this
      rw [this]
      decide)
    have keep : ∀ (l : Line) (v : State), v.bc = (s.setLine i w l).bc →
        l.claim = (s.line i w).claim → v.claimLaw := fun l v hv hl =>
      State.claimLaw_of_bc (State.claimLaw_setLine h i w (hl.trans hc)) hv
    split
    · exact keep { s.line i w with
        state := .writing, current := (s.line i w).next, next := [] } _ (by simp) rfl
    · split
      · exact keep { s.line i w with state := .writing } _ (by simp) rfl
      · exact keep _ _ rfl rfl
  · exact h

theorem State.claimLaw_fillFailed {s : State} (h : s.claimLaw) (i : SetId) (w : Way) :
    (s.fillFailed i w).1.claimLaw := by
  simp only [State.fillFailed]
  split
  · exact State.claimLaw_setLine (State.claimLaw_of_sets h (by simp)) i w rfl
  · exact h

theorem State.claimLaw_startFlush {s : State} (h : s.claimLaw) (k : SlotId) :
    (s.startFlush k).claimLaw := by
  have step : ∀ (l : List (SetId × Way)) (u : State), u.claimLaw →
      (l.foldl (fun t p => t.flushLine p.1 p.2) u).claimLaw := by
    intro l
    induction l with
    | nil => exact fun _ hu => hu
    | cons x l ih =>
      intro u hu
      rw [List.foldl_cons]
      refine ih _ ?_
      simp only [State.flushLine]
      split
      · rename_i hd
        have : (u.line x.1 x.2).claim = none := CacheSet.claim_of_state (hu x.1) (by
          have : (u.line x.1 x.2).state = .dirty := by simpa using hd
          simp only [State.line] at this
          rw [this]
          decide)
        exact State.claimLaw_of_bc (State.claimLaw_setLine hu x.1 x.2
          (l := { u.line x.1 x.2 with state := .writing }) this) (by simp [State.modifyLine])
      · exact hu
  exact step _ _ (State.claimLaw_of_sets h rfl)

/-- Every consequence keeps the law of the claims. -/
theorem runTask_claimLaw (t : Task) (s : State) (h : s.claimLaw) : (runTask t s).1.claimLaw := by
  cases t with
  | arrive k =>
    simp only [runTask, State.arriveVisit, State.arriveRawWrite, State.arriveRepair,
      State.arriveOrdinary]
    repeat' split
    all_goals first
      | with_reducible exact State.claimLaw_hit h _ _ k
      | with_reducible exact State.claimLaw_obtainLine h k
      | with_reducible exact h
  | refuse k =>
    simp only [runTask, State.refuseVisit]
    repeat' split
    all_goals exact State.claimLaw_of_bc h (by simp)
  | finish k r =>
    simp only [runTask, State.finishRequest]
    split <;> exact State.claimLaw_of_bc h (by simp)
  | dispatch k =>
    have visiting : ∀ r, (s.setVisiting k r).claimLaw := fun r =>
      State.claimLaw_of_bc h (by simp [State.setVisiting])
    simp only [runTask, State.dispatchRequest]
    split
    · split
      · exact h
      · dsimp only
        exact State.claimLaw_startFlush (visiting _) k
      · dsimp only
        exact visiting _
    · exact h
  | consider =>
    simp only [runTask, State.considerNext, State.treat, State.letIn, State.takeHold,
      State.startLoad]
    repeat' split
    all_goals exact State.claimLaw_of_bc h (by simp)
  | owner =>
    simp only [runTask, State.checkOwner]
    repeat' split
    all_goals exact h
  | retry i =>
    simp only [runTask, State.retrySet]
    repeat' split
    all_goals first
      | with_reducible exact h
      | with_reducible exact State.claimLaw_setWaiting h i _
      | (rename_i hp
         have := State.claimLaw_takeLine (State.claimLaw_setWaiting h i _) hp
         exact this)
  | rechoose k => exact State.claimLaw_takeLine_getD h (State.claimLaw_setWaiting h _ _) k []
  | flushCheck =>
    simp only [runTask, State.checkFlush]
    repeat' split
    all_goals exact State.claimLaw_of_sets h rfl
  | lineLost i w => exact State.claimLaw_writeFailed h i w
  | leaveList i w k => exact State.claimLaw_leaveWriteList h i w k
  | lookNext i w => exact State.claimLaw_lookAtNext h i w

/-- A settled event keeps the law if its first state meets it. -/
theorem settle_claimLaw {p : State × List Task} {u : State} (hp : p.1.claimLaw)
    (h : settle p = some u) : u.claimLaw :=
  settle_induction (P := State.claimLaw) runTask_claimLaw
    (fun v hv => State.claimLaw_of_bc hv (by simp)) hp h

end Sys2Proof.Machine
end

