-- ==== Sys2Proof/Laws/PerInstr.lean ====
section
/-! SUPPORT. One lemma for each command about its well-formedness: which operands it admits. -/

namespace Sys2Proof.Laws.WellFormed

open Sys2Proof

/-- The operands with which a command is well formed: an ILLEGAL_COMMAND's value names no command, a
register write enables some byte, and its offset is that of a word of the window; every other command
admits all of its operands. -/
def Statement (i : Instr) : Prop :=
  i.wf = true ↔
    (∀ v, i = .illegalCommand v → v.toNat = 0 ∨ 6 < v.toNat)
      ∧ (∀ v be, i = .intcauseWrite v be → be ≠ 0)
      ∧ (∀ v be, i = .intmaskWrite v be → be ≠ 0)
      ∧ ∀ off v be, i = .registerWrite off v be → off < 4096 ∧ off % 4 = 0 ∧ be ≠ 0

theorem powerOnReset : Statement .powerOnReset :=
  iff_of_true rfl ⟨nofun, nofun, nofun, nofun⟩

theorem bringup : Statement .bringup :=
  iff_of_true rfl ⟨nofun, nofun, nofun, nofun⟩

theorem start : Statement .start :=
  iff_of_true rfl ⟨nofun, nofun, nofun, nofun⟩

theorem stop : Statement .stop :=
  iff_of_true rfl ⟨nofun, nofun, nofun, nofun⟩

theorem resume : Statement .resume :=
  iff_of_true rfl ⟨nofun, nofun, nofun, nofun⟩

theorem abandon : Statement .abandon :=
  iff_of_true rfl ⟨nofun, nofun, nofun, nofun⟩

theorem reset : Statement .reset :=
  iff_of_true rfl ⟨nofun, nofun, nofun, nofun⟩

theorem illegalCommand (value : Word) : Statement (.illegalCommand value) := by
  simp [Statement, Instr.wf, namesCommand]

theorem nudge (value : Word) : Statement (.nudge value) :=
  iff_of_true rfl ⟨nofun, nofun, nofun, nofun⟩

theorem intcauseWrite (value : Word) (enables : BitVec 4) :
    Statement (.intcauseWrite value enables) := by
  simp [Statement, Instr.wf]

theorem intmaskWrite (value : Word) (enables : BitVec 4) :
    Statement (.intmaskWrite value enables) := by
  simp [Statement, Instr.wf]

theorem registerWrite (offset : Nat) (value : Word) (enables : BitVec 4) :
    Statement (.registerWrite offset value enables) := by
  simp [Statement, Instr.wf, and_assoc]

theorem memoryProfileArrival (tag : Nat) (data : Block64) :
    Statement (.memoryProfileArrival tag data) :=
  iff_of_true rfl ⟨nofun, nofun, nofun, nofun⟩

theorem memoryProfileFault (tag : Nat) : Statement (.memoryProfileFault tag) :=
  iff_of_true rfl ⟨nofun, nofun, nofun, nofun⟩

theorem tableProfileArrival (tag : Nat) (data : Block64) :
    Statement (.tableProfileArrival tag data) :=
  iff_of_true rfl ⟨nofun, nofun, nofun, nofun⟩

theorem tableProfileFault (tag : Nat) : Statement (.tableProfileFault tag) :=
  iff_of_true rfl ⟨nofun, nofun, nofun, nofun⟩

theorem headerArrival (tag : Nat) (data : Block64) : Statement (.headerArrival tag data) :=
  iff_of_true rfl ⟨nofun, nofun, nofun, nofun⟩

theorem takenWriteCompletion (tag : Nat) : Statement (.takenWriteCompletion tag) :=
  iff_of_true rfl ⟨nofun, nofun, nofun, nofun⟩

theorem recordArrival (tag : Nat) (data : Block64) : Statement (.recordArrival tag data) :=
  iff_of_true rfl ⟨nofun, nofun, nofun, nofun⟩

theorem linkArrival (tag : Nat) (link : Addr) : Statement (.linkArrival tag link) :=
  iff_of_true rfl ⟨nofun, nofun, nofun, nofun⟩

theorem resultWriteCompletion (tag : Nat) : Statement (.resultWriteCompletion tag) :=
  iff_of_true rfl ⟨nofun, nofun, nofun, nofun⟩

theorem retirementWriteCompletion (tag : Nat) : Statement (.retirementWriteCompletion tag) :=
  iff_of_true rfl ⟨nofun, nofun, nofun, nofun⟩

theorem releaseWriteCompletion (tag : Nat) : Statement (.releaseWriteCompletion tag) :=
  iff_of_true rfl ⟨nofun, nofun, nofun, nofun⟩

theorem chainAccessFault (tag : Nat) : Statement (.chainAccessFault tag) :=
  iff_of_true rfl ⟨nofun, nofun, nofun, nofun⟩

theorem loadCompletion (tag : Nat) (data : Block128) : Statement (.loadCompletion tag data) :=
  iff_of_true rfl ⟨nofun, nofun, nofun, nofun⟩

theorem storeCompletion (tag : Nat) : Statement (.storeCompletion tag) :=
  iff_of_true rfl ⟨nofun, nofun, nofun, nofun⟩

theorem bufferAccessFault (tag : Nat) : Statement (.bufferAccessFault tag) :=
  iff_of_true rfl ⟨nofun, nofun, nofun, nofun⟩

theorem statusWriteCompletion (tag : Nat) : Statement (.statusWriteCompletion tag) :=
  iff_of_true rfl ⟨nofun, nofun, nofun, nofun⟩

theorem statusWriteFault (tag : Nat) : Statement (.statusWriteFault tag) :=
  iff_of_true rfl ⟨nofun, nofun, nofun, nofun⟩

theorem readDataArrival (data : Block128) : Statement (.readDataArrival data) :=
  iff_of_true rfl ⟨nofun, nofun, nofun, nofun⟩

theorem writeAlert : Statement .writeAlert :=
  iff_of_true rfl ⟨nofun, nofun, nofun, nofun⟩

theorem alertWaitExpiry (age : Nat) : Statement (.alertWaitExpiry age) :=
  iff_of_true rfl ⟨nofun, nofun, nofun, nofun⟩

theorem openWaitExpiry (bank : BankId) : Statement (.openWaitExpiry bank) :=
  iff_of_true rfl ⟨nofun, nofun, nofun, nofun⟩

theorem holdMinExpiry (bank : BankId) : Statement (.holdMinExpiry bank) :=
  iff_of_true rfl ⟨nofun, nofun, nofun, nofun⟩

theorem closeWaitExpiry (bank : BankId) : Statement (.closeWaitExpiry bank) :=
  iff_of_true rfl ⟨nofun, nofun, nofun, nofun⟩

theorem idleCloseExpiry (bank : BankId) : Statement (.idleCloseExpiry bank) :=
  iff_of_true rfl ⟨nofun, nofun, nofun, nofun⟩

theorem refreshWaitExpiry : Statement .refreshWaitExpiry :=
  iff_of_true rfl ⟨nofun, nofun, nofun, nofun⟩

theorem refreshPeriodExpiry : Statement .refreshPeriodExpiry :=
  iff_of_true rfl ⟨nofun, nofun, nofun, nofun⟩

theorem gapNearExpiry (group : GroupId) : Statement (.gapNearExpiry group) :=
  iff_of_true rfl ⟨nofun, nofun, nofun, nofun⟩

theorem gapFarExpiry (group : GroupId) : Statement (.gapFarExpiry group) :=
  iff_of_true rfl ⟨nofun, nofun, nofun, nofun⟩

theorem turnGapExpiry : Statement .turnGapExpiry :=
  iff_of_true rfl ⟨nofun, nofun, nofun, nofun⟩

theorem resetHoldExpiry : Statement .resetHoldExpiry :=
  iff_of_true rfl ⟨nofun, nofun, nofun, nofun⟩

theorem modeGapExpiry : Statement .modeGapExpiry :=
  iff_of_true rfl ⟨nofun, nofun, nofun, nofun⟩

theorem deviceResetPhase : Statement .deviceResetPhase :=
  iff_of_true rfl ⟨nofun, nofun, nofun, nofun⟩

theorem arbiterIssue : Statement .arbiterIssue :=
  iff_of_true rfl ⟨nofun, nofun, nofun, nofun⟩

theorem stepExecution (set : SetId) (way : Way) : Statement (.stepExecution set way) :=
  iff_of_true rfl ⟨nofun, nofun, nofun, nofun⟩

end Sys2Proof.Laws.WellFormed
end

