-- ==== Sys2Proof/Tests/Slice0.lean ====
section
/-! SUPPORT. Tests: ill-formed terms the check refuses, values the spec works out, and one witness for each
statement with hypotheses. -/

namespace Sys2Proof.Tests

set_option Elab.async false

open Sys2Proof Sys2Proof.Machine

/-! ## Small states -/

/-- A memory profile at the low ends of its ranges. -/
def profile : MemoryProfile :=
  { openWait := 1, closeWait := 1, holdMin := 1, gapNear := 1, gapFar := 1, turnGap := 1,
    alertWait := 1, refreshWait := 1, idleClose := 1, modeGap := 1, refreshPeriod := 256,
    resetHold := 256, closePolicy := .openPage, modeWords := Vector.replicate 4 0 }

/-- A part brought up, in this engine state. -/
def up (e : EngineState) : State :=
  { State.reset with
    ec := { EngineControl.reset with
      engine := e, identity := some ⟨10, 0⟩, statusAddr := some 4096#64 }
    cu := { ChainUnit.reset with chainStart := 8192#64 }
    mc := { MemoryController.reset with profile := some profile, rows := some 4096 } }

/-- The same in RUNNING, in this fetch phase. -/
def chain (p : FetchPhase) : State :=
  { up .running with cu := { (up .running).cu with phase := p } }

/-- One access outstanding, with tag 0. -/
def on (s : State) (k : AccessKind) : State := s.issue k 8192#64 64 []

/-- That access. -/
def the (k : AccessKind) : BusAccess := ⟨0, k, 8192#64, 64, [], true⟩

/-- What a command answers, when it answers a next state. -/
def after (c : Instr) (s : State) : Option State :=
  match exec c s with
  | .next t => some t
  | _ => none

theorem awaits_on (s : State) (k : AccessKind) (h : s.bi.accesses = []) (h' : s.bi.nextTag = 0) :
    (on s k).awaits 0 (the k) := by
  simp [on, the, State.awaits, State.accessOf, State.issue, h, h']

/-- The 128 bytes of the empty bucket: zeros but for the check word. -/
def blankBits : Block128 := Image.blank.check.setWidth 1024 <<< 32

/-- A LOOKUP of key 0. -/
def lookup : Request := ⟨.lookup, 0, 0⟩

/-- Slot 0 with this request at work on its first visit. -/
def visiting (r : Request) : Slot :=
  { Slot.empty with
    state := .visiting, considered := true, request := some r,
    context := some (Context.fresh r 10 0) }

/-- A line holding the empty bucket 0, the request of slot 0 at its head. -/
def lineFor (st : LineState) : Line :=
  { Line.empty with state := st, tag := some 0, image := .blank, waiters := [0] }

/-- RUNNING, slot 0 at work, its line in way 0 of set 0. -/
def stepping (r : Request) (st : LineState) (p : WritePolicy) : State :=
  let s := (up .running).setSlot 0 (visiting r)
  { s.setLine 0 0 (lineFor st) with
    bc := { (s.setLine 0 0 (lineFor st)).bc with policy := p }, rt := { s.rt with age := [0] } }

/-- An ISSUED access of attempt `n` in bank 0, its alert window open when it is a write. -/
def issued (t : Transaction) (n : Nat) : Access :=
  { body := t, attempt := n, overtaken := 0, age := 0, issued := true,
    alert := if t.direction.isWrite then .running (some 1) else .stopped, orphan := false }

/-- The access in the queue of bank 0, its data awaited when it is a read. -/
def queuedIn (s : State) (a : Access) : State :=
  let s' := s.setBank 0 { Bank.empty with state := .opened 0, queue := [a] }
  if a.body.direction.isWrite then s'
  else { s' with mc := { s'.mc with reads := [.access 0 0] } }

/-- A read for the line of way 0 of set 0. -/
def fill : Transaction := ⟨.bucket 0, .read, .line 0 0⟩

/-- A write of the sweep. -/
def sweepWrite : Transaction := ⟨.bucket 0, .write .blank, .sweep⟩

/-- A write of the line of way 0 of set 0. -/
def lineWrite : Transaction := ⟨.bucket 0, .write .blank, .line 0 0⟩

/-! ## The checks refuse what is ill formed -/

theorem test_wf_refuses :
    (Instr.illegalCommand 1).wf = false ∧ (Instr.illegalCommand 6).wf = false
      ∧ (Instr.intcauseWrite 1 0).wf = false ∧ (Instr.intmaskWrite 1 0).wf = false
      ∧ (Instr.registerWrite 4096 0 15).wf = false ∧ (Instr.registerWrite 2 0 15).wf = false
      ∧ (Instr.registerWrite 12 0 0).wf = false := by decide

theorem test_wf_admits :
    (Instr.illegalCommand 0).wf = true ∧ (Instr.illegalCommand 7).wf = true
      ∧ (Instr.registerWrite 4092 0 15).wf = true ∧ (Instr.intcauseWrite 1 1).wf = true := by
  decide

theorem test_no_word_spells_a_command :
    decodeTableWord 32 1 = none ∧ State.reset.withFetchWord 32 1 = State.reset := ⟨rfl, rfl⟩

/-! ## Values the spec works out -/

theorem test_crc_check_value :
    crc32 [0x31, 0x32, 0x33, 0x34, 0x35, 0x36, 0x37, 0x38, 0x39] = 0xE3069283#32 := by
  decide +kernel

theorem test_blank_passes_its_check :
    Image.ofBits blankBits = Image.blank ∧ Image.blank.valid = true
      ∧ Image.repaired.valid = true ∧ Image.repaired.spill = 255 := by
  decide +kernel

theorem test_mapping_of_bucket_700 :
    bankOf 700 = 2 ∧ rowOf 700 = 1 ∧ colOf 700 = 60 ∧ setOf 700 = 60 := by decide

theorem test_accumulate_examples :
    accumulate false (BitVec.allOnes 64) 1 = (0, .accumulated)
      ∧ accumulate true (BitVec.allOnes 64) 1 = (BitVec.allOnes 64, .clamped)
      ∧ accumulate true 5 (BitVec.allOnes 64) = (4, .accumulated)
      ∧ accumulate true 0 (BitVec.allOnes 64) = (0, .clamped) := by decide +kernel

theorem test_detected_rows :
    detectedRows [some .m0, some .m0, some .m0] = some 4096
      ∧ detectedRows [some .m12, some .m13, some .m14] = some 32768
      ∧ detectedRows [none, some .m0, some .m0] = none := by decide

theorem test_status_block_after_reset :
    State.reset.statusBlock = zeroBytes 256 := by decide +kernel

theorem test_hash_example_K6 :
    primaryBucket 10 0 1 = 859 ∧ alternateBucket 10 0 1 = 482 := by decide +kernel

theorem test_polynomial_reversed : crcReversed = crcPolynomial.reverse := by decide +kernel

/-! ## Witnesses: the register window -/

theorem test_witness_queue :
    ({ State.reset with pending := [.stop, .start] } : State).pending = .stop :: [.start]
      ∧ (after .bringup State.reset).isSome = true := by decide +kernel

theorem test_witness_engine_reset :
    (up .cold).ec.engine = .cold ∧ (up .probing).ec.engine = .probing
      ∧ (up .failed).ec.engine = .failed ∧ (up .ready).ec.engine = .ready
      ∧ (up .clearing).ec.engine = .clearing ∧ (up .stalled).ec.engine.serving = true
      ∧ (after .reset (stepping lookup .dirty .back)).map (fun t => t.ec.identity) = some none
      ∧ (after .reset (stepping lookup .clean .back)).map (fun t => t.ec.identity)
        = some (some ⟨10, 0⟩) := by decide +kernel

/-- A setup address one below a multiple of 64. -/
def misaligned (s : State) : State := { s with bi := { s.bi with setupL := 63 } }

theorem test_witness_bringup :
    (up .cold).ec.engine = .cold ∧ (up .failed).ec.engine = .failed
      ∧ (up .cold).setupAddr.toNat % 64 = 0 ∧ (misaligned (up .cold)).setupAddr.toNat % 64 ≠ 0
      ∧ (misaligned (up .cold)).ec.engine = .cold := by decide +kernel

theorem test_witness_start :
    (up .ready).ec.engine = .ready ∧ (up .ready).ec.startRead = none
      ∧ (up .ready).bi.accesses = [] ∧ (misaligned (up .ready)).bi.accesses = []
      ∧ (up .ready).setupAddr.toNat % 64 = 0 ∧ (misaligned (up .ready)).ec.startRead = none
      ∧ (misaligned (up .ready)).setupAddr.toNat % 64 ≠ 0 := by decide +kernel

/-- PARKED with this anchor. -/
def parkedAt (a : Anchor) : State :=
  { chain .parked with cu := { (chain .parked).cu with anchor := some a, parked := true } }

theorem test_witness_stop :
    (∀ p ∈ [FetchPhase.taking, .records, .link, .blocked, .header, .parked, .idle],
      (on (chain p) (.resultWrite 0)).ec.engine = .running
        ∧ (on (chain p) (.resultWrite 0)).outstanding AccessKind.ofChain = true
        ∧ (on (chain p) (.resultWrite 0)).cu.phase = p)
      ∧ (on (chain .header) .headerRead).outstanding (· == .headerRead) = true
      ∧ (on (chain .header) (.resultWrite 0)).outstanding (· == .headerRead) = false
      ∧ (parkedAt ⟨64, true, false⟩).cu.phase = .parked
      ∧ (parkedAt ⟨64, true, false⟩).cu.batches = []
      ∧ (parkedAt ⟨64, true, false⟩).cu.retirementOutstanding = false := by decide +kernel

/-- LINK with a retired anchor, its link's read outstanding and no batch open. -/
def linkRetired : State :=
  on { chain .link with cu := { (chain .link).cu with anchor := some ⟨64, true, false⟩ } } .linkRead

/-- STOP before the link has arrived releases the retired anchor at once (R109). -/
theorem test_stop_in_link_releases :
    linkRetired.ec.engine = .running ∧ linkRetired.outstanding AccessKind.ofChain = true
      ∧ linkRetired.cu.batches = [] ∧ linkRetired.cu.retirementOutstanding = false
      ∧ (after .stop linkRetired).map (fun t => (t.cu.phase, t.cu.releases))
        = some (.link, [64]) := by decide +kernel

/-- CLEARING with this sweep and ending. -/
def clearing (w : Sweep) (e : Ending) : State :=
  { up .clearing with ec := { (up .clearing).ec with sweep := w, ending := e } }

theorem test_witness_stop_in_clearing :
    (clearing ⟨.discard, 0, 0⟩ .none).statusDue = false
      ∧ (clearing ⟨.discard, 0, 0⟩ .none).ec.sweep.phase = .discard
      ∧ (clearing ⟨.writing, 5, 1⟩ .none).ec.sweep.outstanding ≠ 0
      ∧ (clearing ⟨.writing, 5, 1⟩ .stop).ec.ending ≠ .none
      ∧ (clearing ⟨.writing, 5, 1⟩ .none).ec.engine = .clearing := by decide +kernel

/-- STALLED from a state that resumes to `r`; one access remembered. -/
def stalledFrom (r : ResumeState) : State :=
  { up .stalled with
    ec := { (up .stalled).ec with resumeState := r, stallHostFault := true }
    cu := { (up .stalled).cu with faulted := [the .headerRead], nextAddr := some 8192#64 } }

theorem test_witness_resume :
    (∀ a, (stalledFrom .running).cu.nextAddr = some a → a.toNat % 64 = 0)
      ∧ (stalledFrom .running).cu.chainStart.toNat % 64 = 0
      ∧ (stalledFrom .running).ec.resumeState = .running
      ∧ (stalledFrom .stopping).ec.resumeState = .stopping
      ∧ (stalledFrom .stopping).ec.chainClosed = false
      ∧ (∃ a ∈ (stalledFrom .stopping).cu.faulted, a.live = true ∧ a.kind.ofChain = true) :=
  ⟨fun a h => by cases h; decide, by decide, rfl, rfl, rfl, the .headerRead, by decide, rfl, rfl⟩

/-- STALLED in this fetch phase, to resume as RUNNING, the Chain Unit as changed. -/
def stalledIn (p : FetchPhase) (f : ChainUnit → ChainUnit) : State :=
  { up .stalled with cu := f { (up .stalled).cu with phase := p } }

/-- The steps of RESUME: a refused batch with and without an anchor, a parked unit with a nudge pending,
what waited in TAKING and LINK, and a misaligned next address (R108). -/
theorem test_witness_resume_steps :
    (after .resume (stalledIn .blocked fun c =>
        { c with badBatch := true, anchor := some ⟨64, false, false⟩ })).map
        (fun t => (t.cu.phase, t.cu.badBatch)) = some (.link, false)
      ∧ (stalledIn .blocked fun c => { c with badBatch := true }).readsHeader = false
      ∧ (after .resume (stalledIn .blocked fun c => { c with badBatch := true })).map
        (fun t => (t.cu.phase, t.readsHeader)) = some (.header, true)
      ∧ (after .resume (stalledIn .parked fun c =>
        { c with nudgePending := true, anchor := some ⟨64, false, false⟩ })).map
        (fun t => t.cu.phase) = some .link
      ∧ (after .resume (stalledIn .taking fun c => { c with current := some 64 })).map
        (fun t => t.outstanding (· == .takenWrite)) = some true
      ∧ (after .resume (stalledIn .link fun c => { c with anchor := some ⟨64, false, false⟩ })).map
        (fun t => t.outstanding (· == .linkRead)) = some true
      ∧ (after .resume (stalledIn .header fun c => { c with nextAddr := some 65 })).map
        (fun t => (t.ec.engine, t.cu.phase)) = some (.stalled, .blocked) := by decide +kernel

/-- A stall in which slot 0 waits to be read, slot 1 to be reported and slot 2 to be loaded, a batch to be
retired and one to be released. -/
def waitingAll : State :=
  let s := stalledIn .ended fun c => { c with
    given := [0], batches := [⟨8192, 2, true, 2, 2, false⟩], releasesWaiting := [64] }
  let s := ((s.setSlot 0 { Slot.empty with state := .fetching, batch := 8192 }).setSlot 1
    { Slot.empty with state := .finished, batch := 8192, result := some (.bare .done) }).setSlot 2
    { Slot.empty with
      state := .loading, request := some ⟨.rawWrite, 0, 64⟩, transfer := .waiting }
  { s with rt := { s.rt with age := [0, 1, 2], unreported := [1] } }

theorem test_witness_resume_waiting :
    waitingAll.ec.resumeState = .running ∧ waitingAll.cu.chainStart.toNat % 64 = 0
      ∧ (∀ k ∈ waitingAll.cu.given ++ waitingAll.rt.unreported, (waitingAll.slot k).state ≠ .free)
      ∧ waitingAll.cu.retirementOutstanding = false
      ∧ (after .resume waitingAll).map (fun t => t.bi.accesses.map BusAccess.kind)
        = some [.recordRead 0, .resultWrite 1, .retirementWrite, .releaseWrite 64, .bufferRead 2,
          .statusWrite] := by decide +kernel

/-- A slot in this state. -/
def withSlot (s : State) (st : SlotState) : State :=
  s.setSlot 0 { Slot.empty with state := st }

theorem test_witness_abandon :
    (∀ st ∈ [SlotState.waitingKey, .held, .finished, .visiting, .awaitingWrite, .fetching],
      ((withSlot (on (chain .link) .linkRead) st).slot 0).state = st
        ∧ (withSlot (on (chain .link) .linkRead) st).ec.engine = .running
        ∧ (withSlot (on (chain .link) .linkRead) st).outstanding AccessKind.ofChain = true)
      ∧ (on (up .stalled) .linkRead).ec.engine = .stalled
      ∧ (up .stopping).ec.engine = .stopping
      ∧ (on (up .stalled) (.recordRead 0)).outstanding (· == .recordRead 0) = true := by
  decide +kernel

theorem test_witness_abandon_transfers :
    (∀ st ∈ [SlotState.loading, .storing, .reporting],
      ((withSlot (up .running) st).slot 0).state = st
        ∧ ((withSlot (up .running) st).slot 0).transfer ≠ .outstanding
        ∧ (after .abandon (withSlot (up .running) st)).map (fun t => t.ec.engine) = some .ready)
      ∧ (up .running).outstanding AccessKind.ofChain = false
      ∧ (after .abandon (withSlot (up .running) .visiting)).map
        (fun t => (t.ec.engine, t.ec.ending, t.cu.phase)) = some (.stopping, .abandon, .idle)
      ∧ ({ up .stopping with ec := { (up .stopping).ec with ending := .abandon } } :
        State).statusDue = false := by decide +kernel

/-- STOPPING with this ending, phase ENDED, an access of the Chain Unit outstanding. -/
def stopping (e : Ending) (k : AccessKind) : State :=
  let s := on (chain .ended) k
  { s with ec := { s.ec with engine := .stopping, ending := e } }

/-- ABANDON in STOPPING changes the ending alone: no status write issues (R169). -/
theorem test_witness_abandon_in_stopping :
    (stopping .stop .linkRead).statusDue = false ∧ (stopping .stop .linkRead).cu.parked = false
      ∧ (stopping .stop .linkRead).ec.statusAddr.isSome = true
      ∧ (after .abandon (stopping .stop .linkRead)).map (fun t => (t.ec.ending, t.bi.accesses.length))
        = some (.abandon, 1)
      ∧ (after .abandon (on (chain .link) .linkRead)).map (fun t => t.bi.accesses.length)
        = some 2 := by decide +kernel

/-- A START that an engine reset has discarded, its profile read not ended. -/
def startDiscarded : State :=
  let s := up .ready
  { s with bi := { s.bi with accesses := [{ the .tableProfileRead with live := false }] } }

/-- A START is illegal until the profile read of the discarded one has ended (R152). -/
theorem test_start_after_discarded_start :
    startDiscarded.ec.engine = .ready ∧ startDiscarded.ec.startRead = none
      ∧ (after .start startDiscarded).map (fun t => (t.ec.refusedCommand, t.ec.startRead))
        = some (some 2, none)
      ∧ (after (.tableProfileFault 0) startDiscarded).map
          (fun t => (t.bi.accesses, t.ec.refusalCause)) = some ([], .none) := by decide +kernel

theorem test_witness_illegal :
    (up .ready).ec.engine ≠ .cold ∧ (up .ready).ec.engine ≠ .failed
      ∧ (up .running).ec.engine ≠ .ready ∧ (up .ready).ec.engine ≠ .clearing
      ∧ (up .ready).ec.engine ≠ .stalled ∧ (up .ready).ec.engine.serving = false
      ∧ (0 : Word).toNat = 0 ∧ 6 < (7 : Word).toNat
      ∧ (after (.illegalCommand 7) (up .ready)).map (fun t => t.ec.refusedCommand)
        = some (some 7) := by decide +kernel

theorem test_witness_nudge :
    (parkedAt ⟨64, false, false⟩).statusDue = false
      ∧ (parkedAt ⟨64, false, false⟩).cu.phase = .parked
      ∧ (chain .records).cu.phase ≠ .parked ∧ (chain .records).statusDue = false
      ∧ (up .ready).ec.engine ≠ .running ∧ (up .ready).ec.engine ≠ .stalled
      ∧ (up .ready).ec.engine ≠ .stopping
      ∧ (after (.nudge 0) (parkedAt ⟨64, false, false⟩)).map (fun t => t.cu.phase)
        = some .link := by decide +kernel

theorem test_witness_register_writes :
    (up .ready).statusDue = false
      ∧ (after (.registerWrite 12 64 15) (up .ready)).map State.setupAddr = some 64
      ∧ (after (.registerWrite 12 64 3) (up .ready)).map State.setupAddr = some 0
      ∧ (after (.intmaskWrite 31 15) (up .ready)).map (fun t => t.readRegister 24) = some 31
      ∧ (up .ready).readRegister 4 = 3 := by decide +kernel

/-! ## Witnesses: bring-up and START -/

/-- The bytes of `profile`. -/
def profileBits : Block64 := 0x01000100#512 <<< 80 ||| 0x01010101010101010101#512

theorem test_witness_memory_profile :
    (on (up .probing) .memoryProfileRead).awaits 0 (the .memoryProfileRead)
      ∧ decodeMemoryProfile profileBits = some profile ∧ decodeMemoryProfile 0 = none
      ∧ field profileBits 10 2 = 256 :=
  ⟨awaits_on _ _ rfl rfl, by decide +kernel, by decide +kernel, by decide +kernel⟩

/-- PROBING at this phase of the sequencer, the timers of the device phases running. -/
def probing (p : SequencerPhase) : State :=
  { up .probing with
    mc := { (up .probing).mc with
      sequencer := p, resetHold := .running (some 256), modeGap := .running (some 1) } }

theorem test_witness_device_phases :
    (probing .awaitingReset).mc.profile = some profile
      ∧ (probing .awaitingReset).mc.sequencer = .awaitingReset
      ∧ (probing .awaitingReset).mc.reads = [] ∧ (probing .awaitingReset).mc.waits = []
      ∧ (∀ b : BankId, ((probing .awaitingReset).bank b).queue = [])
      ∧ (probing .awaitingReset).ec.sweep.phase = .idle
      ∧ ((queuedIn (probing .awaitingReset) (issued fill 1)).mc.reads ≠ [])
      ∧ (probing .resetHold).mc.resetHold.isRunning = true
      ∧ (∀ i : Fin 4, (probing (.mode i)).mc.sequencer = .mode i)
      ∧ (probing (.mode 4)).mc.sequencer = .mode 4
      ∧ (probing (.mode 4)).mc.modeGap.isRunning = true := by decide +kernel

/-- PROBING, the data of pattern `i` awaited. -/
def pattern (i : Nat) : State :=
  { probing (.lanes i) with
    mc := { (probing (.lanes i)).mc with reads := [.pattern i false] } }

theorem test_witness_lanes :
    (pattern 0).mc.reads = .pattern 0 false :: [] ∧ (pattern 0).mc.accepting = true
      ∧ (after (.readDataArrival 1) (pattern 0)).map (fun t => t.mc.laneFaults) = some 1
      ∧ (after (.readDataArrival 0) (pattern 2)).map (fun t => t.mc.laneFaults)
        = some 255
      ∧ (after (.readDataArrival 0) (pattern 3)).map (fun t => t.ec.engine) = some .failed
      ∧ (pattern 3).mc.accepting = true := by decide +kernel

/-- A read of the size probe. -/
def probeRead : Transaction := ⟨.direct 0 16384 0, .read, .bringup⟩

/-- PROBING, the last read of the size probe awaited. -/
def lastProbe : State :=
  queuedIn (probing (.probe 6 [some .m0, some .m0])) (issued probeRead 1)

/-- The 128 bytes of the marker of row 0. -/
def markerBits : Block128 :=
  Marker.m0.image.sealed.check.setWidth 1024 <<< 32 ||| 1#1024 ||| 1#1024 <<< 64

theorem test_witness_size_probe :
    lastProbe.mc.reads = .access 0 0 :: [] ∧ lastProbe.queued 0 0 = some (issued probeRead 1)
      ∧ (issued probeRead 1).orphan = false ∧ (Image.ofBits markerBits).valid = true
      ∧ (Image.ofBits blankBits).valid = true
      ∧ detectedRows [some .m0, some .m0, Marker.ofImage (Image.ofBits markerBits)] = some 4096
      ∧ detectedRows [some .m0, some .m0, Marker.ofImage (Image.ofBits blankBits)] = none
      ∧ lastProbe.mc.sequencer = .probe 6 [some .m0, some .m0] ∧ lastProbe.mc.waits = []
      ∧ lastProbe.mc.accepting = true := by decide +kernel

/-- The data of pattern 3: bit `j % 8` alone in lane `j % 8` of beat `j`. -/
def walkingBits : Block128 :=
  (List.range 16).foldl (fun x j => x ||| 1#1024 <<< (8 * (8 * j + j % 8) + j % 8)) 0

/-- The probe goes on: its first access after the lane check, the next after a write and after a read. -/
theorem test_witness_probe_goes_on :
    (after (.readDataArrival walkingBits) (pattern 3)).map (fun t => (t.mc.laneFaults, t.mc.sequencer))
        = some (0, .probe 0 [])
      ∧ (queuedIn (probing (.probe 3 [])) (issued ⟨.direct 0 0 0, .write .blank, .bringup⟩ 1)).openWindow
        0 = some (0, issued ⟨.direct 0 0 0, .write .blank, .bringup⟩ 1)
      ∧ probeAccesses[4]? = some (4096, none)
      ∧ (after (.alertWaitExpiry 0) (queuedIn (probing (.probe 3 []))
        (issued ⟨.direct 0 0 0, .write .blank, .bringup⟩ 1))).map (fun t => t.mc.sequencer)
        = some (.probe 4 [])
      ∧ (after (.readDataArrival markerBits) (queuedIn (probing (.probe 4 []))
        (issued probeRead 1))).map (fun t => t.mc.sequencer) = some (.probe 5 [some .m0]) := by
  decide +kernel

/-- A table profile of size 10, seed 0, policy BACK and these flags. -/
def tableBits (flags : Nat) : Block64 :=
  BitVec.ofNat 512 (10 + 256 + flags * 2 ^ 16 + 8192 * 2 ^ 128 + 4096 * 2 ^ 192)

theorem test_witness_table_profile :
    (on (up .ready) .tableProfileRead).awaits 0 (the .tableProfileRead)
      ∧ (on (up .ready) .tableProfileRead).ec.engine = .ready
      ∧ (on (up .ready) .tableProfileRead).ec.ending = .none
      ∧ (on (up .ready) .tableProfileRead).outstanding (· == .headerRead) = false
      ∧ (decodeTableProfile 0).wellFormed (some 4096) = false
      ∧ (decodeTableProfile (tableBits 0)).wellFormed (some 4096) = true
      ∧ (decodeTableProfile (tableBits 0)).clear = false
      ∧ (decodeTableProfile (tableBits 0)).identity = ⟨10, 0⟩
      ∧ (up .ready).ec.identity = some ⟨10, 0⟩
      ∧ (some ⟨10, 1⟩ : Option Identity) ≠ some (decodeTableProfile (tableBits 0)).identity
      ∧ (decodeTableProfile (tableBits 1)).clear = true
      ∧ (decodeTableProfile (tableBits 1)).wellFormed (some 4096) = true
      ∧ (decodeTableProfile (tableBits 4)).wellFormed (some 4096) = false
      ∧ ((stepping lookup .writing .back).line 0 0).state = .writing :=
  ⟨awaits_on _ _ rfl rfl, by decide +kernel⟩

/-- A clearing START with every line FREE or CLEAN: the sweep hands over seventeen writes, the last of
which waits for the full bank (R61, R154). -/
theorem test_witness_sweep_begins :
    (∀ u ∈ (on (up .ready) .tableProfileRead).mc.waits, u.requester ≠ .sweep)
      ∧ ((on (up .ready) .tableProfileRead).bank 0).queue.length ≤ 16
      ∧ ((stepping lookup .clean .back).line 0 0).state = .clean
      ∧ (after (.tableProfileArrival 0 (tableBits 1)) (on (up .ready) .tableProfileRead)).map
        (fun t => (t.ec.sweep, t.mc.waits.length, (t.bank 0).queue.length))
        = some (⟨.writing, 17, 17⟩, 1, 16) := by decide +kernel

/-! ## Witnesses: the chain -/

/-- A header with this record count and state byte. -/
def headerBits (count state : Nat) : Block64 :=
  BitVec.ofNat 512 (count * 2 ^ 64 + state * 2 ^ 208)

/-- An open batch at 8192 of two records with this done count, its link followed or not. -/
def batch (done : Nat) (followed : Bool) : OpenBatch := ⟨8192#64, 2, true, 2, done, followed⟩

/-- The phase with these open batches and this anchor. -/
def chainWith (p : FetchPhase) (l : List OpenBatch) (a : Option Anchor) : State :=
  { chain p with cu := { (chain p).cu with batches := l, anchor := a } }

theorem test_witness_header :
    (on (chain .header) .headerRead).awaits 0 (the .headerRead)
      ∧ (on (chain .header) .headerRead).ec.engine = .running
      ∧ (on (chain .header) .headerRead).cu.phase = .header
      ∧ field (headerBits 1 1) 26 1 = 1 ∧ field (headerBits 1 1) 8 2 = 1
      ∧ field (headerBits 1024 1) 8 2 = 1024 ∧ field (headerBits 1025 1) 8 2 = 1025
      ∧ field (headerBits 0 1) 8 2 = 0 ∧ field (headerBits 1 2) 26 1 ≠ 1
      ∧ (chainWith .header [] (some ⟨64, true, false⟩)).openBatch 64 = none
      ∧ (chainWith .header [batch 0 false] (some ⟨8192#64, false, false⟩)).cu.anchor
        = some ⟨8192#64, false, false⟩ :=
  ⟨awaits_on _ _ rfl rfl, by decide +kernel⟩

/-- TAKING the batch at 8192. -/
def taking : State :=
  let s := chainWith .taking [⟨8192#64, 2, true, 0, 0, false⟩] none
  { s with cu := { s.cu with current := some 8192#64 } }

theorem test_witness_taken :
    (on taking .takenWrite).awaits 0 (the .takenWrite)
      ∧ (on taking .takenWrite).ec.engine = .running ∧ (on taking .takenWrite).cu.phase = .taking
      ∧ (on taking .takenWrite).cu.current = some 8192#64 ∧ (on taking .takenWrite).cu.given = []
      ∧ (after (.takenWriteCompletion 0) (on taking .takenWrite)).map (fun t => t.cu.phase)
        = some .link
      ∧ (after (.takenWriteCompletion 0) (on taking .takenWrite)).map (fun t => t.rt.age)
        = some [0, 1] :=
  ⟨awaits_on _ _ rfl rfl, by decide +kernel⟩

/-- A FETCHING slot. -/
def fetching : Slot := { Slot.empty with state := .fetching }

/-- The same with only the last `n` slots FREE. -/
def takingInto (n : Nat) : State :=
  on { taking with
    rt := { taking.rt with
      slots := Vector.ofFn fun k => if k.val < 64 - n then fetching else Slot.empty } } .takenWrite

theorem test_witness_taken_slots :
    (∀ n ∈ [0, 1, 2, 3], (takingInto n).openBatch 8192 = some ⟨8192#64, 2, true, 0, 0, false⟩)
      ∧ (after (.takenWriteCompletion 0) (takingInto 0)).map (fun t => (t.cu.phase, t.rt.age))
        = some (.records, [])
      ∧ (after (.takenWriteCompletion 0) (takingInto 1)).map (fun t => (t.cu.phase, t.rt.age))
        = some (.records, [63])
      ∧ (after (.takenWriteCompletion 0) (takingInto 2)).map (fun t => (t.cu.phase, t.rt.age))
        = some (.link, [62, 63])
      ∧ (after (.takenWriteCompletion 0) (takingInto 3)).map (fun t => (t.cu.phase, t.rt.age))
        = some (.link, [61, 62]) := by decide +kernel

/-- RUNNING, the record of slot 1 awaited; slot 0, older, is as given. -/
def recordAwaited (x : Slot) : State :=
  let s := on (((up .running).setSlot 0 x).setSlot 1 fetching) (.recordRead 1)
  { s with rt := { s.rt with age := [0, 1] } }

/-- The same with the fence hold owned by slot 0. -/
def recordHeld : State :=
  let s := recordAwaited { Slot.empty with state := .held, considered := true }
  { s with rt := { s.rt with hold := some 0 } }

/-- A LOOKUP record of key 0 and a record of an unassigned kind. -/
def lookupBits : Block64 := 1#512

theorem test_witness_record_waits :
    (recordAwaited fetching).considerationPoint ≠ some 1
      ∧ ((recordAwaited fetching).slot 1).discarded = false
      ∧ (recordAwaited fetching).statusDue = false
      ∧ (recordAwaited fetching).accessOf 0 = some (the (.recordRead 1)) := by decide +kernel

theorem test_witness_record_considered :
    (recordAwaited (visiting lookup)).accessOf 0 = some (the (.recordRead 1))
      ∧ (recordAwaited (visiting lookup)).considerationPoint = some 1
      ∧ ((recordAwaited (visiting lookup)).slot 1) = fetching
      ∧ (∀ j : SlotId, j ≠ 1 → ((recordAwaited (visiting lookup)).slot j).record = none)
      ∧ (recordAwaited (visiting lookup)).rt.hold = none ∧ recordHeld.rt.hold.isSome = true
      ∧ recordHeld.considerationPoint = some 1 ∧ recordHeld.ec.engine = .running
      ∧ decodeRecord 10 0 = none ∧ decodeRecord 10 lookupBits = some lookup
      ∧ lookup.kind.keyed = true
      ∧ (recordAwaited (visiting lookup)).keyHeld 1 0 = true := by decide +kernel

/-- Slot 0 at the consideration point with a record of this kind byte. -/
def atPoint (e : EngineState) (kind : Nat) : State :=
  let s := (up e).setSlot 0 { fetching with record := some (BitVec.ofNat 512 kind) }
  { s with rt := { s.rt with age := [0] } }

theorem test_witness_fencing :
    (∀ e ∈ [EngineState.running, .stalled], ∀ kind ∈ [5, 8],
      (atPoint e kind).considerationPoint = some 0 ∧ (atPoint e kind).rt.hold = none
        ∧ ((atPoint e kind).slot 0).record = some (BitVec.ofNat 512 kind))
      ∧ decodeRecord 10 5 = some ⟨.fence, 0, 0⟩ ∧ decodeRecord 10 8 = some ⟨.rawWrite, 0, 0⟩
      ∧ (atPoint .running 8).mayIssue = true ∧ (atPoint .stalled 8).mayIssue = false
      ∧ decodeRecord 10 (BitVec.ofNat 512 (8 + 1023 * 2 ^ 64)) = some ⟨.rawWrite, 1023, 0⟩
      ∧ decodeRecord 10 (BitVec.ofNat 512 (8 + 1024 * 2 ^ 64)) = none
      ∧ decodeRecord 10 (BitVec.ofNat 512 (2 + 3 * 2 ^ 8)) = none := by decide +kernel

/-- Slot 0 at work on another key, its record considered. -/
def elsewhere : Slot := visiting ⟨.lookup, 1, 0⟩

/-- The record of slot 1 awaited, bucket 0 resident in way 0. -/
def recordHits : State := (recordAwaited elsewhere).setLine 0 0 (lineFor .clean)

theorem test_witness_record_visits :
    (recordAwaited elsewhere).keyHeld 1 0 = false
      ∧ (recordAwaited elsewhere).tl.size = 10 ∧ (recordAwaited elsewhere).rt.hold = none
      ∧ primaryBucket 10 0 0 = 0 ∧ setOf 0 = 0
      ∧ (recordHits.cacheSet 0).find 0 = some 0 ∧ (recordHits.line 0 0).claim = none
      ∧ recordHits.considerationPoint = some 1 ∧ (recordHits.slot 1).context = none
      ∧ ((recordAwaited elsewhere).cacheSet 0).find 0 = none
      ∧ (recordAwaited elsewhere).listed 0 = false
      ∧ ((recordAwaited elsewhere).cacheSet 0).waiting = []
      ∧ (recordAwaited elsewhere).claimedFor 0 0 = false
      ∧ (∀ v : Way, ((recordAwaited elsewhere).line 0 v).claim ≠ some 1)
      ∧ ((recordAwaited elsewhere).cacheSet 0).choose = .allocate 0 := by decide +kernel

/-- A RAW_READ of this bucket. -/
def rawRead (b : Key) : Request := ⟨.rawRead, b, 64⟩

/-- Slot 0 looks for bucket 0 and slot 1 for bucket 128 of the same set, whose way 0 is as given. -/
def contend (l : Line) (waiting : List SlotId) : State :=
  let s := ((up .running).setSlot 0 (visiting lookup)).setSlot 1 (visiting (rawRead 128))
  (s.setLine 0 0 l).putSet 0 { (s.setLine 0 0 l).cacheSet 0 with waiting := waiting }

/-- A set whose four lines are this one. -/
def setWith (l : Line) : CacheSet := { CacheSet.empty with lines := Vector.replicate 4 l }

/-- A line of bucket 0 with nothing in its lists. -/
def resting (st : LineState) : Line := { lineFor st with waiters := [] }

/-- A WRITING line claimed for slot 1. -/
def claimed : Line := { resting .writing with claim := some 1 }

theorem test_witness_arrival :
    (runTask (.arrive 0) (contend claimed [])).2 = [.rechoose 1, .retry 0]
      ∧ (runTask (.arrive 1) ((contend (resting .clean) []).poisonBucket 128 .read)).2 = [.refuse 1]
      ∧ ((runTask (.arrive 1) (contend claimed [])).1.cacheSet 0).waiting = [1]
      ∧ ((runTask (.arrive 1) (contend (resting .clean) [5])).1.cacheSet 0).waiting = [5, 1]
      ∧ ((runTask (.arrive 1) (contend (resting .clean) [])).1.line 0 1).waiters = [1]
      ∧ (runTask (.retry 0) (contend claimed [1])).2 = []
      ∧ ((runTask (.retry 0) (contend (resting .dirty) [1])).1.cacheSet 0).waiting = [] := by
  decide +kernel

theorem test_witness_choice :
    CacheSet.empty.choose = .allocate 0 ∧ (setWith (resting .clean)).choose = .allocate 0
      ∧ (setWith (resting .dirty)).choose = .castout 0
      ∧ (setWith (lineFor .dirty)).choose = .nothing
      ∧ (setWith claimed).choose = .nothing
      ∧ ({ setWith (resting .dirty) with
          lines := (setWith (resting .dirty)).lines.set 0 claimed } : CacheSet).choose
        = .nothing := by decide +kernel

/-- LINK with an anchor, its link's read outstanding. -/
def linkAwaited (nudged : Bool) (n : Nat) : State :=
  let s := chainWith .link (List.replicate n (batch 0 false)) (some ⟨8192#64, false, false⟩)
  on { s with cu := { s.cu with nudgePending := nudged } } .linkRead

theorem test_witness_link :
    (linkAwaited false 0).awaits 0 (the .linkRead)
      ∧ (linkAwaited false 0).ec.engine = .running ∧ (linkAwaited false 0).cu.phase = .link
      ∧ (linkAwaited false 0).cu.anchor = some ⟨8192#64, false, false⟩
      ∧ (linkAwaited false 0).readsHeader = false
      ∧ (64 : Addr) ≠ 0 ∧ (64 : Addr).toNat % 64 = 0 ∧ (65 : Addr).toNat % 64 ≠ 0
      ∧ (linkAwaited false 7).cu.batches.length < 8
      ∧ 8 ≤ (linkAwaited false 8).cu.batches.length
      ∧ (linkAwaited true 0).cu.nudgePending = true
      ∧ (linkAwaited false 0).cu.nudgePending = false :=
  ⟨awaits_on _ _ rfl rfl, by decide +kernel⟩

/-- RUNNING in LINK, the result of a found LOOKUP of the batch at 8192 being written. -/
def resultAwaited : State :=
  on ((chainWith .link [batch 1 false] none).setSlot 0
    { Slot.empty with
      state := .reporting, batch := 8192#64, considered := true, request := some lookup,
      result := some (.bare .found) }) (.resultWrite 0)

theorem test_witness_result :
    resultAwaited.awaits 0 (the (.resultWrite 0)) ∧ resultAwaited.ec.engine = .running
      ∧ resultAwaited.cu.phase ≠ .records ∧ resultAwaited.cu.given = []
      ∧ resultAwaited.cu.batches = batch 1 false :: []
      ∧ resultAwaited.cu.retirementOutstanding = false
      ∧ (batch 1 false).addr = (resultAwaited.slot 0).batch
      ∧ (batch 1 false).doneCount + 1 = (batch 1 false).recordCount
      ∧ (after (.resultWriteCompletion 0) resultAwaited).map (fun t => t.ec.counters.lookupsFound)
        = some 1 :=
  ⟨awaits_on _ _ rfl rfl, by decide +kernel⟩

theorem test_witness_retirement :
    (on (chainWith .link [batch 2 false] (some ⟨8192#64, false, false⟩)) .retirementWrite).awaits 0
        (the .retirementWrite)
      ∧ (∀ x, (chainWith .link [batch 2 false] none).cu.nextAddr = some x → x.toNat % 64 = 0)
      ∧ (chainWith .link [batch 2 false] none).cu.batches = batch 2 false :: []
      ∧ (batch 2 false).linkFollowed = false ∧ (batch 2 true).linkFollowed = true
      ∧ (chainWith .header [batch 2 true, batch 2 false] none).cu.batches
        = batch 2 true :: batch 2 false :: []
      ∧ (batch 2 false).doneCount = (batch 2 false).recordCount
      ∧ (chainWith .header (List.replicate 8 (batch 2 true)) none).cu.batches.length = 8
      ∧ (chainWith .header (List.replicate 8 (batch 2 true)) none).readsHeader = false :=
  ⟨awaits_on _ _ rfl rfl, fun _ h => (by cases h), by decide +kernel⟩

/-- A STOP whose chain has ended, the anchor's release write outstanding. -/
def releasing : State :=
  let s := chainWith .ended [] (some ⟨8192#64, true, true⟩)
  on { s with ec := { s.ec with engine := .stopping, ending := .stop } } (.releaseWrite 8192#64)

theorem test_witness_release :
    (on (chain .parked) (.releaseWrite 8192#64)).awaits 0 (the (.releaseWrite 8192#64))
      ∧ releasing.awaits 0 (the (.releaseWrite 8192#64))
      ∧ (on (chain .parked) (.releaseWrite 8192#64)).statusDue = false
      ∧ releasing.ec.engine = .stopping ∧ releasing.ec.ending = .stop
      ∧ releasing.cu.phase = .ended ∧ releasing.cu.batches = []
      ∧ releasing.cu.retirementOutstanding = false
      ∧ releasing.cu.anchor = some ⟨8192#64, true, true⟩ ∧ releasing.cu.faulted = []
      ∧ releasing.cu.releasesWaiting = []
      ∧ (releasing.endAccess 0).outstanding AccessKind.ofChain = false
      ∧ (∀ k : SlotId, (releasing.slot k).state = .free)
      ∧ (after (.releaseWriteCompletion 0) releasing).map (fun t => t.ec.engine) = some .ready :=
  ⟨awaits_on _ _ rfl rfl, awaits_on _ _ rfl rfl, by decide +kernel⟩

theorem test_witness_bus_faults :
    (on (chain .header) .headerRead).awaits 0 (the .headerRead)
      ∧ AccessKind.headerRead.ofChain = true ∧ (on (chain .header) .headerRead).ec.engine = .running
      ∧ (on (up .stalled) .headerRead).awaits 0 (the .headerRead)
      ∧ (on (up .stalled) .headerRead).ec.resumeState = .running
      ∧ (on (up .running) (.bufferRead 0)).awaits 0 (the (.bufferRead 0))
      ∧ (on (up .running) (.bufferWrite 63)).awaits 0 (the (.bufferWrite 63)) :=
  ⟨awaits_on _ _ rfl rfl, rfl, rfl, awaits_on _ _ rfl rfl, rfl, awaits_on _ _ rfl rfl,
    awaits_on _ _ rfl rfl⟩

/-- STOPPING for an ABANDON, the retirement write of the anchor's batch outstanding. -/
def retiringAbandoned (followed : Bool) : State :=
  let s := stopping .abandon .retirementWrite
  { s with cu := { s.cu with
      batches := [batch 2 followed], anchor := some ⟨8192#64, false, false⟩,
      retirementOutstanding := true } }

/-- Under ABANDON an unfollowed anchor is marked retired, a followed batch gets no release write, and with
nothing else outstanding the chain is closed (R104, R110). -/
theorem test_witness_retirement_abandoned :
    (retiringAbandoned false).awaits 0 (the .retirementWrite)
      ∧ (retiringAbandoned false).ec.chainClosed = false
      ∧ (retiringAbandoned false).cu.phase = .ended
      ∧ (after (.retirementWriteCompletion 0)
          ((retiringAbandoned false).issue .linkRead 64 8 [])).map (fun t => t.cu.anchor)
        = some (some ⟨8192#64, true, false⟩)
      ∧ (after (.retirementWriteCompletion 0)
          ((retiringAbandoned true).issue .linkRead 64 8 [])).map
          (fun t => (t.cu.anchor, t.cu.releases)) = some (some ⟨8192#64, false, false⟩, [])
      ∧ (after (.retirementWriteCompletion 0) (retiringAbandoned false)).map
          (fun t => (t.ec.engine, t.cu.retireSeq)) = some (.ready, 1) :=
  ⟨awaits_on _ _ rfl rfl, by decide +kernel⟩

/-- The late ends under STOP and ABANDON: a header, a link, and the data of a discarded slot (R91, R109,
R110). -/
theorem test_witness_late_ends :
    (stopping .stop .linkRead).awaits 0 (the .linkRead)
      ∧ (stopping .abandon .headerRead).awaits 0 (the .headerRead)
      ∧ (stopping .stop .linkRead).ec.chainClosed = false
      ∧ (after (.linkArrival 0 64) (stopping .stop .linkRead)).map (fun t => t.ec.engine)
        = some .ready
      ∧ (after (.headerArrival 0 (headerBits 1 1)) (stopping .abandon .headerRead)).map
        (fun t => (t.ec.engine, t.cu.batches)) = some (.ready, [])
      ∧ (after (.chainAccessFault 0) (stopping .abandon .headerRead)).map (fun t => t.ec.engine)
        = some .ready
      ∧ (after (.bufferAccessFault 0) (withSlot (stopping .abandon (.bufferRead 0)) .loading)).map
        (fun t => (t.slot 0).state) = some .free
      ∧ (after (.recordArrival 0 1) ((stopping .abandon (.recordRead 0)).setSlot 0
          { fetching with discarded := true })).map (fun t => (t.slot 0).state) = some .free
      ∧ (stopping .abandon (.releaseWrite 64)).cu.phase ≠ .taking :=
  ⟨awaits_on _ _ rfl rfl, awaits_on _ _ rfl rfl, by decide +kernel⟩

/-! ## Witnesses: buffers and status writes -/

/-- A RAW_WRITE in slot 1 that owns the fence hold and loads its image; slot 0 is older. -/
def loading : State :=
  let s := ((up .running).setSlot 0 (visiting lookup)).setSlot 1
    { Slot.empty with
      state := .loading, considered := true, request := some ⟨.rawWrite, 0, 64⟩,
      transfer := .outstanding }
  on { s with rt := { s.rt with age := [0, 1], hold := some 1 } } (.bufferRead 1)

theorem test_witness_load :
    loading.awaits 0 (the (.bufferRead 1)) ∧ (loading.slot 1).discarded = false
      ∧ loading.rt.hold = some 1 ∧ (loading.slot 1).request = some ⟨.rawWrite, 0, 64⟩
      ∧ (0 : SlotId) ∈ loading.olderThan 1 ∧ (loading.slot 0).state.isFinished = false
      ∧ loading.statusDue = false :=
  ⟨awaits_on _ _ rfl rfl, by decide +kernel⟩

/-- Slot 0 holds this fencing request, which owns the hold, in this slot state. -/
def owner (k : Kind) (st : SlotState) (im : Option Image) : State :=
  let s := (up .running).setSlot 0
    { visiting ⟨k, 0, 0⟩ with
      state := st, context := some { Context.fresh ⟨k, 0, 0⟩ 10 0 with image := im } }
  { s with rt := { s.rt with age := [0], hold := some 0 } }

/-- The same with its bucket on the poison list. -/
def repairing : State := (owner .repair .visiting none).poisonBucket 0 .read

theorem test_witness_owner :
    (runTask .owner (owner .rawRead .held none)).2 = [.dispatch 0]
      ∧ (runTask .owner (owner .rawRead .visiting none)).2 = []
      ∧ ((owner .fence .held none).slot 0).request = some ⟨.fence, 0, 0⟩
      ∧ (runTask (.arrive 0) (owner .repair .visiting none)).2 = [.finish 0 (.bare .notListed)]
      ∧ repairing.listed 0 = true ∧ (repairing.cacheSet 0).choose = .allocate 0
      ∧ repairing.claimedFor 0 0 = false ∧ (repairing.cacheSet 0).waiting = []
      ∧ (runTask (.arrive 0) repairing).1.bc.poison = []
      ∧ ((runTask (.arrive 0) repairing).1.line 0 0).state = .writing
      ∧ (runTask (.arrive 0) (owner .rawWrite .visiting (some .blank))).2
        = [.finish 0 (.bare .done)]
      ∧ (((owner .rawWrite .visiting none).setLine 0 0 (resting .clean)).cacheSet 0).find 0
        = some 0 := by decide +kernel

/-- A RAW_READ in slot 0 that owns the fence hold and stores its image. -/
def storing : State :=
  let s := (up .running).setSlot 0
    { visiting ⟨.rawRead, 0, 64⟩ with state := .storing, transfer := .outstanding }
  on { s with rt := { s.rt with age := [0], hold := some 0 } } (.bufferWrite 0)

theorem test_witness_store :
    storing.awaits 0 (the (.bufferWrite 0)) ∧ storing.ec.engine = .running
      ∧ storing.rt.hold = some 0 ∧ (storing.slot 0).state = .storing
      ∧ (storing.slot 0).considered = true
      ∧ (∀ j : SlotId, j ≠ 0 → (storing.slot j).state ≠ .held ∧ (storing.slot j).record = none)
      ∧ (after (.storeCompletion 0) storing).map (fun t => (t.slot 0).state)
        = some .reporting :=
  ⟨awaits_on _ _ rfl rfl, by decide +kernel⟩

/-- A RAW_READ of bucket 0 at the head of its line. -/
def reading : State := stepping (rawRead 0) .clean .back

/-- Slot 0 at work, slot 1 in WAITING_KEY on the same key. -/
def guarded : State :=
  let s := ((up .running).setSlot 0 (visiting lookup)).setSlot 1
    { visiting lookup with state := .waitingKey, context := none }
  { s with rt := { s.rt with age := [0, 1] } }

/-- A FLUSH in slot 0, a line of bucket 0 in this state. -/
def flushing (st : LineState) : State := (owner .flush .held none).setLine 0 0 (resting st)

/-- The same with the flush sweep in progress. -/
def sweeping (st : LineState) : State :=
  { flushing st with bc := { (flushing st).bc with flush := some 0 } }

theorem test_witness_read_guard_flush :
    (reading.line 0 0).state.executes = true ∧ (reading.line 0 0).waiters = 0 :: []
      ∧ (reading.cacheSet 0).waiting = [] ∧ reading.abandoning = false
      ∧ (after (.stepExecution 0 0) reading).map (fun t => (t.slot 0).transfer)
        = some .outstanding
      ∧ (runTask (.finish 0 (.bare .done)) guarded).2 = [.dispatch 1, .owner]
      ∧ (runTask (.finish 0 (.bare .done)) storing).2 = [.consider]
      ∧ ((flushing .dirty).slot 0).request = some ⟨.flush, 0, 0⟩
      ∧ (((flushing .dirty).flushLine 0 0).line 0 0).state = .writing
      ∧ (sweeping .clean).bc.flush = some 0 ∧ ((sweeping .dirty).line 0 0).state = .dirty
      ∧ (runTask .flushCheck (sweeping .dirty)).2 = []
      ∧ (runTask .flushCheck (sweeping .clean)).2 = [.finish 0 (.bare .done)] := by decide +kernel

/-- A status write outstanding in this engine state, another owed as said. -/
def statusOut (e : EngineState) (o : Owed) (issued : Bool) : State :=
  let s := on (up e) .statusWrite
  { s with ec := { s.ec with status := ⟨o, 1, 2, some 0, issued⟩ } }

theorem test_witness_status :
    (statusOut .running .now false).awaits 0 (the .statusWrite)
      ∧ (statusOut .running .now false).ec.status.owed = .now
      ∧ (statusOut .running .now false).ec.statusAddr = some 4096#64
      ∧ (statusOut .running .nothing false).ec.status.owed ≠ .now
      ∧ (statusOut .running .now false).ec.engine ≠ .stalled
      ∧ (statusOut .stalled .now true).ec.status.stallReportIssued = true
      ∧ (statusOut .stopping .now true).ec.engine = .stopping
      ∧ (statusOut .ready .now false).ec.engine ≠ .running
      ∧ (after (.statusWriteCompletion 0) (statusOut .running .now false)).map
        (fun t => t.ec.intCause) = some 2
      ∧ (after (.statusWriteFault 0) (statusOut .running .now false)).map (fun t => t.ec.engine)
        = some .stalled :=
  ⟨awaits_on _ _ rfl rfl, by decide +kernel⟩

theorem test_witness_status_fault_elsewhere :
    (statusOut .ready .nothing false).ec.status.owed ≠ .now
      ∧ (after (.statusWriteFault 0) (statusOut .ready .nothing false)).map (fun t => t.ec.status)
        = some ⟨.atNextUpdate, 1, 0, none, false⟩
      ∧ (after (.statusWriteFault 0) (statusOut .ready .now false)).map (fun t => t.ec.status)
        = some ⟨.nothing, 0, 1, some 1, false⟩
      ∧ (after (.statusWriteFault 0) (statusOut .stalled .now true)).map (fun t => t.ec.status)
        = some ⟨.now, 1, 0, none, true⟩ := by decide +kernel

/-! ## Witnesses: the devices' reports -/

/-- The 128 bytes of the empty bucket with a wrong check word. -/
def badBits : Block128 := blankBits + 1#1024 <<< 32

/-- The fill of the line of way 0 of set 0, its one waiter slot 0. -/
def filling (n : Nat) : State :=
  queuedIn (stepping lookup .filling .back) (issued fill n)

theorem test_witness_fill :
    (filling 1).mc.reads = .access 0 0 :: [] ∧ (filling 1).queued 0 0 = some (issued fill 1)
      ∧ ((filling 1).line 0 0).state = .filling ∧ (Image.ofBits blankBits).valid = true
      ∧ (filling 1).mc.waits = [] ∧ (filling 1).mc.accepting = true
      ∧ (filling 1).statusDue = false ∧ (issued fill 1).attempt = 1
      ∧ (Image.ofBits badBits).valid = false := by decide +kernel

theorem test_witness_second_mismatch :
    (filling 2).mc.reads = .access 0 0 :: [] ∧ (filling 2).queued 0 0 = some (issued fill 2)
      ∧ (issued fill 2).attempt = 2 ∧ (filling 2).ec.engine = .running
      ∧ ((filling 2).line 0 0).tag = some 0 ∧ ((filling 2).line 0 0).waiters = [0]
      ∧ ((filling 2).cacheSet 0).waiting = [] ∧ (filling 2).bc.flush = none
      ∧ (filling 2).bc.poison.length < 32
      ∧ ((filling 2).slot 0).context = some (Context.fresh lookup 10 0)
      ∧ (filling 2).rt.hold = none
      ∧ (∀ j : SlotId, ((filling 2).slot j).state ≠ .waitingKey)
      ∧ (after (.readDataArrival badBits) (filling 2)).map (fun t => t.bc.poison)
        = some [⟨0, .read⟩] := by decide +kernel

/-- The second fill attempt of a line with two waiters, this many poison entries listed. -/
def fillingTwo (n : Nat) : State :=
  let s := (filling 2).setLine 0 0 { lineFor .filling with waiters := [0, 1] }
  { s with bc := { s.bc with poison := List.replicate n ⟨5, .read⟩ } }

theorem test_witness_fill_failures :
    (fillingTwo 0).mc.reads = .access 0 0 :: []
      ∧ (fillingTwo 0).queued 0 0 = some (issued fill 2) ∧ (fillingTwo 0).mc.waits = []
      ∧ (fillingTwo 0).mc.accepting = true ∧ ((fillingTwo 0).line 0 0).tag = some 0
      ∧ ((fillingTwo 0).line 0 0).waiters = [0, 1] ∧ (fillingTwo 31).bc.poison.length < 32
      ∧ 32 ≤ (fillingTwo 32).bc.poison.length
      ∧ (after (.readDataArrival badBits) (fillingTwo 32)).map (fun t => t.bc.overflow)
        = some true
      ∧ (runTask (.refuse 0) ((up .running).setSlot 0 { visiting lookup with
          context := some { Context.fresh lookup 10 0 with visit := .two, reserved := true } })).2
        = [.arrive 0] := by decide +kernel

/-- The third attempt of a castout's write of bucket 0, its claimant slot 1 looking for bucket 128. -/
def castoutFails : State := queuedIn (contend claimed []) (issued lineWrite 3)

/-- The same, and in bank 1 the third attempt of the write of way 1, for which slot 0 waits. -/
def twoFail : State :=
  let s := castoutFails.setLine 0 1
    { resting .writing with tag := some 256, image := .blank, waiters := [0] }
  s.setBank 1 { Bank.empty with
    state := .opened 0, queue := [{ issued ⟨.bucket 256, .write .blank, .line 0 1⟩ 3 with
      age := 1 }] }

/-- One alert that fails two lines of a set: the claimant of the first chooses before the second line
is FREE, and no bucket stands in two lines (R41, R58, R139). -/
theorem test_lines_lost_one_by_one :
    castoutFails.openWindows = [(0, issued lineWrite 3)] ∧ castoutFails.mc.waits = []
      ∧ castoutFails.mc.accepting = true ∧ (castoutFails.line 0 0).tag = some 0
      ∧ castoutFails.ec.sweep.phase ≠ .discard
      ∧ (after .writeAlert castoutFails).map (fun t =>
          ((t.line 0 0).tag, (t.line 0 0).waiters, t.bc.poison))
        = some (some 128, [1], [⟨0, .write⟩])
      ∧ twoFail.openWindows.length = 2
      ∧ (after .writeAlert twoFail).map (fun t =>
          ((t.line 0 0).tag, (t.line 0 1).state, t.bc.poison))
        = some (some 128, .free, [⟨0, .write⟩, ⟨256, .write⟩]) := by decide +kernel

/-- The cache discards its lines: two are still WRITING. -/
def discarding : State :=
  let s := clearing ⟨.discard, 0, 0⟩ .none
  (s.setLine 0 0 (resting .writing)).setLine 5 1 (resting .writing)

theorem test_witness_discard :
    discarding.ec.sweep.phase = .discard ∧ (discarding.line 0 0).state = .writing
      ∧ (discarding.line 0 0).tag = some 0 ∧ ((5 : SetId) ≠ 0) ∧ (discarding.line 5 1).state ≠ .free
      ∧ (runTask (.lineLost 0 0) discarding).2 = [] := by decide +kernel

/-- The last line that is not FREE in a discard; interrupted or not. -/
def lastLine (e : Ending) : State := (clearing ⟨.discard, 0, 0⟩ e).setLine 0 0 (resting .writing)

theorem test_witness_last_line :
    (lastLine .none).ec.sweep.phase = .discard ∧ (lastLine .none).ec.sweep.outstanding = 0
      ∧ 10 ≤ (lastLine .none).tl.size ∧ (lastLine .none).tl.size ≤ 24
      ∧ (∀ (j : SetId) (v : Way), (j ≠ 0 ∨ v ≠ 0) → ((lastLine .none).line j v).state = .free)
      ∧ (lastLine .none).mc.waits = [] ∧ ((lastLine .none).bank 0).queue = []
      ∧ (runTask (.lineLost 0 0) (lastLine .none)).1.ec.sweep = ⟨.writing, 17, 17⟩
      ∧ ((lastLine .stop).writeCompleted 0 0).1.ec.engine = .ready := by decide +kernel

theorem test_witness_write_alert :
    (up .running).openWindows = [] ∧ (up .running).statusDue = false
      ∧ (queuedIn (up .running) (issued lineWrite 2)).openWindows = [(0, issued lineWrite 2)]
      ∧ (issued lineWrite 2).attempt ≤ 2 ∧ (issued lineWrite 1).orphan = false
      ∧ (queuedIn (up .running) (issued lineWrite 2)).mc.accepting = true
      ∧ (queuedIn (up .running) (issued lineWrite 2)).statusDue = false := by decide +kernel

/-- Sixteen writes of the sweep in bank 0, the first on attempt 3 with its window open; the sweep's next
write, of bucket `n`, waits for that bank. -/
def sweepFull (n : Nat) : State :=
  let s := (clearing ⟨.writing, n + 1, 16⟩ .none).setBank 0 { Bank.empty with
    state := .opened 0
    queue := issued sweepWrite 3 :: (List.range 15).map fun i =>
      { issued sweepWrite 1 with age := i + 1, issued := false, alert := .stopped } }
  { s with mc := { s.mc with waits := [⟨.bucket n, .write .blank, .sweep⟩], nextAge := 16 } }

theorem test_witness_sweep :
    (queuedIn (clearing ⟨.draining, 1024, 2⟩ .none) (issued sweepWrite 3)).openWindows
        = [(0, issued sweepWrite 3)]
      ∧ (queuedIn (clearing ⟨.draining, 1024, 2⟩ .none) (issued sweepWrite 3)).mc.waits = []
      ∧ (clearing ⟨.draining, 1024, 2⟩ .none).ec.sweep.phase = .draining
      ∧ (clearing ⟨.draining, 1024, 2⟩ .none).bc.poison.length < 32
      ∧ (after .writeAlert (queuedIn (clearing ⟨.draining, 1024, 2⟩ .none) (issued sweepWrite 3))).map
          (fun t => t.ec.sweep.outstanding) = some 1
      ∧ (sweepFull 10).openWindows = [(0, issued sweepWrite 3)]
      ∧ ((sweepFull 10).bank 0).queue.length = 16 ∧ bankOf 10 = 0 ∧ bankOf 11 = 0
      ∧ (after .writeAlert (sweepFull 10)).map (fun t =>
          (t.ec.sweep, t.mc.waits.length, (t.bank 0).queue.length))
        = some (⟨.writing, 12, 16⟩, 1, 16)
      ∧ (queuedIn (clearing ⟨.draining, 1024, 1⟩ .none) (issued sweepWrite 1)).openWindow 0
        = some (0, issued sweepWrite 1)
      ∧ aligned64 (clearing ⟨.draining, 1024, 1⟩ .none).cu.chainStart = true
      ∧ (clearing ⟨.draining, 1024, 1⟩ .none).readsHeader = false
      ∧ (clearing ⟨.draining, 1024, 1⟩ .none).cu.batches = []
      ∧ (clearing ⟨.draining, 1024, 1⟩ .stop).ec.ending ≠ .none
      ∧ (after (.alertWaitExpiry 0)
          (queuedIn (clearing ⟨.draining, 1024, 1⟩ .none) (issued sweepWrite 1))).map
          (fun t => t.ec.engine) = some .running := by decide +kernel

/-- The write of a WRITING line without waiters, its window open. -/
def writing : State :=
  queuedIn ((up .running).setLine 0 0 { lineFor .writing with waiters := [] }) (issued lineWrite 1)

theorem test_witness_alert_wait :
    writing.openWindow 0 = some (0, issued lineWrite 1) ∧ (writing.line 0 0).state = .writing
      ∧ (writing.line 0 0).claim = none ∧ (writing.line 0 0).current = []
      ∧ (writing.cacheSet 0).waiting = [] ∧ writing.bc.flush = none
      ∧ writing.ec.sweep.phase = .idle ∧ writing.mc.waits = [] ∧ writing.mc.accepting = true
      ∧ writing.statusDue = false := by decide +kernel

theorem test_witness_write_completions :
    ((contend { resting .writing with current := [0] } []).writeCompleted 0 0).2
        = [.leaveList 0 0 0, .retry 0, .flushCheck]
      ∧ ((contend { resting .rewrite with current := [0], next := [1] } []).writeCompleted 0 0).2
        = [.leaveList 0 0 0, .lookNext 0 0]
      ∧ ((runTask (.lookNext 0 0) (contend { resting .rewrite with next := [1] } [])).1.line
          0 0).current = [1]
      ∧ ((runTask (.lookNext 0 0) (contend (resting .rewrite) [])).1.line 0 0).state = .dirty
      ∧ (flushing .rewrite).bc.flush = none
      ∧ ((runTask (.lookNext 0 0) (sweeping .rewrite)).1.line 0 0).state = .writing
      ∧ (((contend claimed []).writeCompleted 0 0).1.line 0 0).waiters = [1]
      ∧ (contend claimed []).needsNoFill 1 = false
      ∧ ((discarding.writeCompleted 0 0).1.line 0 0).state = .free := by decide +kernel

/-- The release comes before the look at the next-write list: the line is REWRITE while a request
finishes, and DIRTY once the completion is settled (R71). -/
theorem test_rewrite_releases_before_it_looks :
    let s := contend { resting .rewrite with current := [0] } []
    let released := runTask (.leaveList 0 0 0) s
    released.2 = [.finish 0 (.bare .done)] ∧ (released.1.line 0 0).state = .rewrite
      ∧ (released.1.line 0 0).current = []
      ∧ (settle (s.writeCompleted 0 0)).map (fun t => ((t.line 0 0).state, (t.line 0 0).current))
        = some (.dirty, []) := by decide +kernel

/-- The write of `writing`, its bank full, and an access that waits for that bank. -/
def placeWaited : State :=
  let s := writing.modifyBank 0 fun x => { x with
    queue := x.queue ++ (List.range 15).map fun i => { issued fill 1 with age := i + 1 } }
  { s with mc := { s.mc with waits := [⟨.bucket 64, .read, .line 1 1⟩, fill], nextAge := 16 } }

theorem test_witness_place_taken :
    placeWaited.openWindow 0 = some (0, issued lineWrite 1) ∧ bankOf 64 = 1 ∧ bankOf 0 = 0
      ∧ ((placeWaited.bank 0).queue.filter fun c => c.age != 0).length = 15
      ∧ (after (.alertWaitExpiry 0) placeWaited).map
        (fun t => (t.mc.waits.length, ((t.bank 0).queue.map Access.age).getLast?))
        = some (1, some 16) := by decide +kernel

/-- A line claimed for a REPAIR is given to it whole. -/
theorem test_witness_claimant_needs_no_fill :
    ((repairing.slot 0).context.map fun c => c.request.kind) = some .repair
      ∧ (((repairing.setLine 0 0 { claimed with claim := some 0 }).writeCompleted 0 0).1.line 0
          0).current = [0]
      ∧ ((repairing.setLine 0 0 { claimed with claim := some 0 }).writeCompleted 0 0).2
        = [.retry 0] := by decide +kernel

/-! ## Witnesses: timers and arbiter -/

/-- Bank 0 in this state with every timer running. -/
def banked (b : BankState) : State :=
  (up .running).setBank 0
    { state := b, openWait := .running (some 1), holdMin := .running (some 1),
      closeWait := .running (some 1), idleClose := .running (some 1), queue := [] }

theorem test_witness_bank_timers :
    ((banked (.opening 7)).bank 0).state = .opening 7
      ∧ ((banked (.opening 7)).bank 0).openWait.isRunning = true
      ∧ ((banked .closing).bank 0).state = .closing
      ∧ ((banked .closing).bank 0).closeWait.isRunning = true
      ∧ ((banked (.opened 7)).bank 0).idleClose.isRunning = true
      ∧ (banked .closing).mc.accepting = true := by decide +kernel

/-- The drain after an engine reset, with this bank state. -/
def draining (b : BankState) : State :=
  { banked b with mc := { (banked b).mc with accepting := false } }

theorem test_witness_drain :
    (draining .closing).mc.accepting = false
      ∧ (∀ c : BankId, ((draining .closing).bank c).queue = []
        ∧ (c ≠ 0 → ((draining .closing).bank c).state = .closed))
      ∧ (after (.closeWaitExpiry 0) (draining .closing)).map (fun t => t.mc.accepting)
        = some true
      ∧ (after (.closeWaitExpiry 0)
          ((draining .closing).setBank 1 { Bank.empty with state := .opened 7 })).map
          (fun t => t.mc.accepting) = some false
      ∧ (after (.holdMinExpiry 0) (draining (.opened 7))).bind
        (fun s => (after .arbiterIssue s).map fun t => t.mc.port) = some (some .closeAll) := by
  decide +kernel

/-- The refresh timers running, this many refreshes owed. -/
def owing (n : Nat) (c : Bool) : State :=
  { up .running with
    mc := { (up .running).mc with
      refreshPeriod := .running (some 256), refreshWait := .running (some 1), owed := n,
      committed := c } }

theorem test_witness_refresh :
    (owing 3 true).mc.refreshPeriod.isRunning = true ∧ (owing 3 true).mc.owed < 4
      ∧ 4 ≤ (owing 4 true).mc.owed ∧ (owing 4 true).mc.refreshWait.isRunning = true
      ∧ (owing 4 true).mc.accepting = true
      ∧ (after .refreshPeriodExpiry (owing 2 false)).map (fun t => t.mc.committed) = some true
      ∧ (after .refreshWaitExpiry (owing 3 true)).map (fun t => t.mc.committed)
        = some false := by decide +kernel

/-- One bank OPEN with HOLD_MIN expired, refresh committed. -/
def openCommitted : State :=
  (owing 3 true).setBank 0 { Bank.empty with state := .opened 7 }

theorem test_witness_committed_refresh :
    (owing 3 true).mc.committed = true ∧ (∀ b : BankId, ((owing 3 true).bank b).state = .closed)
      ∧ openCommitted.mc.committed = true ∧ (openCommitted.bank 0).state = .opened 7
      ∧ (∀ b : BankId, (openCommitted.bank b).isOpening = false
        ∧ (openCommitted.bank b).holdMin.isRunning = false)
      ∧ (after .arbiterIssue (owing 3 true)).map (fun t => t.mc.port) = some (some .refresh)
      ∧ (after .arbiterIssue openCommitted).map (fun t => t.mc.port)
        = some (some .closeAll) := by decide +kernel

/-- Bank 0 OPEN with row 7; an access to another row stands ahead of a hit. -/
def overtaking : State :=
  (up .running).setBank 0
    { Bank.empty with
      state := .opened 7
      queue := [⟨⟨.bucket 0, .read, .line 0 0⟩, 1, 0, 0, false, .stopped, false⟩,
        ⟨⟨.bucket 3584, .read, .line 0 1⟩, 1, 0, 1, false, .stopped, false⟩] }

theorem test_witness_column :
    overtaking.choose = some (.column 0 1)
      ∧ (overtaking.bank 0).queue.map Access.age = [0, 1]
      ∧ (after .arbiterIssue overtaking).map (fun t => (t.bank 0).queue.map Access.overtaken)
        = some [1, 0] := by decide +kernel

/-- Bank 0 in this state with an UNISSUED access to row 0 overtaken `m` times, and one to row 1
overtaken `n` times. -/
def twoRows (st : BankState) (m n : Nat) : State :=
  (up .running).setBank 0
    { Bank.empty with
      state := st
      queue := [⟨⟨.bucket 0, .read, .line 0 0⟩, 1, m, 0, false, .stopped, false⟩,
        ⟨⟨.bucket 512, .read, .line 0 1⟩, 1, n, 1, false, .stopped, false⟩] }

/-- The same with the gate of group 0 not yet open. -/
def gapped (m n : Nat) : State :=
  { twoRows (.opened 0) m n with
    mc := { (twoRows (.opened 0) m n).mc with near := (up .running).mc.near.set 0 (.running none) } }

/-- The class order: a hit, a CLOSE for another row, an OPEN; and in class 2 the first access overtaken
8 times whose command's gates are open (R122). -/
theorem test_witness_classes :
    rowOf 512 = 1 ∧ (twoRows (.opened 0) 0 0).choose = some (.column 0 0)
      ∧ (twoRows (.opened 9) 0 0).choose = some (.close 0)
      ∧ (twoRows .closed 0 0).choose = some (.openRow 0 0)
      ∧ (gapped 0 0).choose = none ∧ (gapped 8 0).choose = none
      ∧ (gapped 8 8).choose = some (.close 0)
      ∧ (gapped 8 8).nextCommand 0 ⟨⟨.bucket 0, .read, .line 0 0⟩, 1, 8, 0, false, .stopped, false⟩
        = none
      ∧ oldestOf (fun b => if b = 3 then some (7, .close 3) else none) = some (.close 3)
      ∧ (owing 3 false).choose = none ∧ (owing 3 false).mc.committed = false
      ∧ ({ banked (.opened 7) with
          mc := { (banked (.opened 7)).mc with idleCandidates := [0] } } : State).choose = none := by
  decide +kernel

/-! ## Witnesses: steps -/

theorem test_witness_step_answers :
    ((stepping lookup .clean .back).line 0 0).state.executes = true
      ∧ ((stepping lookup .clean .back).line 0 0).waiters = 0 :: []
      ∧ ((stepping lookup .clean .back).slot 0).context = some (Context.fresh lookup 10 0)
      ∧ lookup.kind.keyed = true
      ∧ (tableStep (Context.fresh lookup 10 0) .blank).ending = .final (.bare .absent)
      ∧ (tableStep (Context.fresh lookup 10 0) .blank).modifying = false
      ∧ (stepping lookup .clean .back).ec.engine = .running
      ∧ (stepping lookup .clean .back).rt.hold = none
      ∧ ((stepping lookup .clean .back).cacheSet 0).waiting = []
      ∧ (∀ j : SlotId, ((stepping lookup .clean .back).slot j).state ≠ .waitingKey) := by
  decide +kernel

/-- An UPSERT of key 0. -/
def upsert : Request := ⟨.insert .upsert, 0, 7⟩

theorem test_witness_step_policy :
    (tableStep (Context.fresh upsert 10 0) .blank).modifying = true
      ∧ (tableStep (Context.fresh upsert 10 0) .blank).ending
        = .final ⟨.inserted, some ⟨0, 0, .primary⟩, 7⟩
      ∧ ((stepping upsert .clean .back).line 0 0).claim = none
      ∧ ((stepping upsert .rewrite .back).line 0 0).state.executes = true
      ∧ (stepping upsert .clean .adaptive).openRow 0 = false
      ∧ (((stepping upsert .clean .adaptive).setBank 0
          { Bank.empty with state := .opened 0 }).openRow 0) = true
      ∧ (after (.stepExecution 0 0) (stepping upsert .clean .back)).map
        (fun t => (t.line 0 0).state) = some .dirty
      ∧ (after (.stepExecution 0 0) (stepping upsert .clean .through)).map
        (fun t => ((t.line 0 0).state, (t.slot 0).state)) = some (.writing, .awaitingWrite)
      ∧ (after (.stepExecution 0 0) (stepping upsert .writing .through)).map
        (fun t => (t.line 0 0).state) = some .rewrite := by decide +kernel

/-- The context of a request on this visit. -/
def visitOf (k : Kind) (v : Visit) (r : Option Result) : Context :=
  { Context.fresh ⟨k, 1, 7⟩ 10 0 with visit := v, pendingResult := r }

/-- A bucket with every slot occupied and this spill count. -/
def full (n : Byte) : Image := { Image.zero with occupancy := 31, spill := n }

theorem test_witness_table_steps :
    (visitOf .delete .three (some (.bare .deleted))).request.kind = .delete
      ∧ (visitOf .lookup .one none).reserved = false
      ∧ (full 0).search 0 = some 0 ∧ (full 0).search 1 = none ∧ (full 0).freeSlot = none
      ∧ (full 255).spill = 255 ∧ (full 254).spill ≠ 255 ∧ Image.blank.freeSlot = some 0
      ∧ (visitOf (.insert .add) .one none).request.kind.placing = true
      ∧ (visitOf (.accumulate true false) .two none).request.kind.placing = true
      ∧ (visitOf (.insert .upsert) .three none).pendingResult = none
      ∧ (visitOf (.accumulate true true) .one none).request.kind = .accumulate true true
      ∧ 10 ≤ 10 ∧ 24 ≤ 24 := by decide +kernel

/-- A DELETE of key 1 that finds nothing at its primary, whose spill count is 1. -/
def onward : State :=
  let r : Request := ⟨.delete, 1, 0⟩
  (stepping r .clean .back).setLine 0 0 { lineFor .clean with image := { Image.zero with spill := 1 } }

theorem test_witness_onward :
    ((onward.slot 0).context.map fun c => (tableStep c (onward.line 0 0).image).ending)
        = some .goOn
      ∧ (onward.line 0 0).state.executes = true ∧ (onward.line 0 0).waiters = 0 :: []
      ∧ Kind.delete.keyed = true ∧ Kind.delete.placing = false
      ∧ (after (.stepExecution 0 0) onward).map
        (fun t => (t.slot 0).context.map Context.visit) = some (some .two)
      ∧ (visitOf (.insert .replace) .one none).reserved = false
      ∧ (tableStep (visitOf .delete .two none) { full 0 with
          slots := #v[⟨1, 9⟩, ⟨0, 0⟩, ⟨0, 0⟩, ⟨0, 0⟩, ⟨0, 0⟩] }).ending = .goOn
      ∧ (tableStep { visitOf (.insert .add) .two none with reserved := true } { full 0 with
          slots := #v[⟨1, 9⟩, ⟨0, 0⟩, ⟨0, 0⟩, ⟨0, 0⟩, ⟨0, 0⟩] }).context.visit = .three := by
  decide +kernel

/-! ## Witnesses: the laws -/

theorem test_witness_laws :
    State.reset.mc.owed ≤ 4 ∧ State.reset.bc.poison.length ≤ 32 ∧ 10 ≤ State.reset.tl.size
      ∧ State.reset.tl.size ≤ 24 ∧ (∀ b : BankId, (State.reset.bank b).queue.length ≤ 16)
      ∧ State.reset.statusDue = false ∧ State.reset.ec.engine = .cold
      ∧ (∀ (i : SetId) (w : Way), (State.reset.line i w).claim = none)
      ∧ (setWith (resting .dirty)).claimed = none
      ∧ (chainWith .header (List.replicate 7 (batch 2 true)) none).cu.batches.length < 8
      ∧ (on (chainWith .header (List.replicate 7 (batch 2 true)) none) .headerRead).headerReads = 1
      ∧ State.reset.headerReads = 0 ∧ State.reset.rt.faulted = [] := by
  decide +kernel

theorem test_step_runs_the_front :
    step { State.reset with pending := [.bringup] } = exec .bringup State.reset := rfl

end Sys2Proof.Tests
end

section
/-! The keyed table: how the hash reads a key as a pair of buckets (R10 to R12), and what the search and
the writes of a slot do with an image (R8, R9). -/

namespace Sys2Proof.Machine

/-! ## The hash (R10 to R12) -/

/-- The top bits of a word, as a number (R11). -/
theorem topBits_eq_div (size : Nat) (x : BitVec 64) :
    topBits size x = x.toNat / 2 ^ (64 - size) := by
  rw [topBits, BitVec.toNat_ushiftRight, Nat.shiftRight_eq_div_pow]

/-- Both products of the hash end in this form: the top bits of a product modulo 2^64. -/
theorem topBits_mul (size : Nat) (x y : BitVec 64) :
    topBits size (x * y) = x.toNat * y.toNat % 2 ^ 64 / 2 ^ (64 - size) := by
  rw [topBits_eq_div, BitVec.toNat_mul]

/-- The top `size` bits of a word are a bucket index of a table of `2 ^ size` buckets. -/
theorem topBits_lt {size : Nat} (h : size ≤ 64) (x : BitVec 64) : topBits size x < 2 ^ size := by
  have split : 2 ^ (64 - size) * 2 ^ size = 2 ^ 64 := by
    rw [← Nat.pow_add, Nat.sub_add_cancel h]
  rw [topBits_eq_div]
  exact Nat.div_lt_of_lt_mul (split ▸ x.isLt)

/-- Rotation by 32 places exchanges the two halves of a word (R12). -/
theorem toNat_rotateLeft_32 (x : BitVec 64) :
    (x.rotateLeft 32).toNat = x.toNat % 2 ^ 32 * 2 ^ 32 + x.toNat / 2 ^ 32 := by
  have high : x.toNat <<< 32 % 2 ^ 64 = (x.toNat % 2 ^ 32) <<< 32 := by
    rw [Nat.shiftLeft_eq, Nat.shiftLeft_eq]
    omega
  have low : x.toNat >>> 32 < 2 ^ 32 := by
    have := x.isLt
    rw [Nat.shiftRight_eq_div_pow]
    omega
  calc (x.rotateLeft 32).toNat
      = x.toNat <<< 32 % 2 ^ 64 ||| x.toNat >>> 32 := BitVec.toNat_rotateLeft
    _ = (x.toNat % 2 ^ 32) <<< 32 + x.toNat >>> 32 := by
        rw [high, Nat.shiftLeft_add_eq_or_of_lt low]
    _ = x.toNat % 2 ^ 32 * 2 ^ 32 + x.toNat / 2 ^ 32 := by
        rw [Nat.shiftLeft_eq, Nat.shiftRight_eq_div_pow]

theorem primaryBucket_lt {size : Nat} (h : size ≤ 64) (seed : BitVec 64) (key : Key) :
    primaryBucket size seed key < 2 ^ size :=
  topBits_lt h _

/-- The alternate by cases: the second product's top bits, or the primary's neighbour where they are
the primary (R12). -/
theorem alternateBucket_eq (size : Nat) (seed : BitVec 64) (key : Key) :
    alternateBucket size seed key =
      if topBits size ((foldKey seed key).rotateLeft 32 * 0xA0761D6478BD642F#64)
          = primaryBucket size seed key
      then primaryBucket size seed key ^^^ 1
      else topBits size ((foldKey seed key).rotateLeft 32 * 0xA0761D6478BD642F#64) := by
  rw [alternateBucket]
  split
  case isTrue same => rw [same]
  case isFalse => rfl

/-- The neighbour `P XOR 1` is in the table as well, as the table has an even number of buckets. -/
theorem alternateBucket_lt {size : Nat} (h0 : 0 < size) (h : size ≤ 64) (seed : BitVec 64)
    (key : Key) : alternateBucket size seed key < 2 ^ size := by
  rw [alternateBucket_eq]
  split
  · exact Nat.xor_lt_two_pow (primaryBucket_lt h seed key) (Nat.one_lt_two_pow h0.ne')
  · exact topBits_lt h _

theorem alternateBucket_ne_primaryBucket (size : Nat) (seed : BitVec 64) (key : Key) :
    alternateBucket size seed key ≠ primaryBucket size seed key := by
  rw [alternateBucket_eq]
  split
  case isTrue => simp
  case isFalse differs => exact differs

/-- Settles O49: the product's top bits, read as a quotient of its residue. -/
theorem primaryBucketIsTheTopOfTheProduct : Obligations.PrimaryBucketIsTheTopOfTheProduct := by
  intro size seed key _ hsize
  exact ⟨topBits_mul size (foldKey seed key) 0xD6E8FEB86659FD93#64,
    primaryBucket_lt (by omega) seed key⟩

/-- Settles O50: the two branches of the replacement; the rotation is the exchange of halves. -/
theorem alternateBucketDiffersFromThePrimary :
    Obligations.AlternateBucketDiffersFromThePrimary := by
  intro size seed key _ hsize
  refine ⟨?_, alternateBucket_lt (by omega) (by omega) seed key,
    alternateBucket_ne_primaryBucket size seed key⟩
  rw [alternateBucket_eq, topBits_mul, toNat_rotateLeft_32]
  rfl

/-! ## The search (R4, R8) -/

/-- Slot `k` holds the key: it is occupied and its key is the sought one (R8). -/
def Image.holds (im : Image) (key : Key) (k : Fin 5) : Prop :=
  im.occupied k = true ∧ im.slots[k].key = key

/-- A search in the slot order is the search for the least index. -/
theorem find?_slotOrder (p : Fin 5 → Bool) : slotOrder.find? p = Fin.find? p :=
  Fin.find?_eq_find?_finRange.symm

/-- The search's own test of a slot. -/
theorem Image.search_test_iff_holds (im : Image) (key : Key) (k : Fin 5) :
    (im.occupied k && im.slots[k].key == key) = true ↔ im.holds key k := by
  simp [Image.holds]

theorem Image.search_eq_some_iff (im : Image) (key : Key) (k : Fin 5) :
    im.search key = some k ↔ im.holds key k ∧ ∀ j : Fin 5, j < k → ¬im.holds key j := by
  simp only [Image.search, find?_slotOrder, Fin.find?_eq_some_iff, ← Bool.not_eq_true,
    Image.search_test_iff_holds]

theorem Image.search_eq_none_iff (im : Image) (key : Key) :
    im.search key = none ↔ ∀ k : Fin 5, ¬im.holds key k := by
  simp only [Image.search, find?_slotOrder, Fin.find?_eq_none_iff, ← Bool.not_eq_true,
    Image.search_test_iff_holds]

/-! ## The writes of one slot (R5, R9) -/

/-- Two images that agree on slot `j`: its entry and its occupancy flag. -/
def Image.sameSlot (im im' : Image) (j : Fin 5) : Prop :=
  im'.slots[j] = im.slots[j] ∧ im'.occupied j = im.occupied j

/-- Writing the entry of slot `k` leaves the entry of every other slot. -/
theorem slots_set_of_ne (slots : Vector Entry 5) (e : Entry) {k j : Fin 5} (h : j ≠ k) :
    (slots.set k e)[j] = slots[j] :=
  Vector.getElem_set_ne k.isLt j.isLt fun same => h (Fin.ext same.symm)

/-- A removal keeps every other slot: the mask clears the flag of slot `k` alone. -/
theorem Image.sameSlot_remove (im : Image) {k j : Fin 5} (h : j ≠ k) :
    im.sameSlot (im.remove k) j := by
  refine ⟨slots_set_of_ne im.slots ⟨0, 0⟩ h, ?_⟩
  have bit : (~~~(1#8 <<< k.val)).getLsbD j = true := by
    revert k j
    decide
  simp [Image.remove, Image.occupied, bit]

/-- Overwriting a value keeps every other slot. -/
theorem Image.sameSlot_overwrite (im : Image) (x : BitVec 64) {k j : Fin 5} (h : j ≠ k) :
    im.sameSlot (im.overwrite k x) j :=
  ⟨slots_set_of_ne im.slots ⟨im.slots[k].key, x⟩ h, rfl⟩

/-- What a request can do to the image at the entry found in slot `k`: remove it, overwrite its value,
or nothing (R23, R24, R28, R30). -/
theorem applyFound_image_cases (c : Context) (im : Image) (k : Fin 5) :
    (applyFound c im k).1 = im.remove k ∨ (∃ x, (applyFound c im k).1 = im.overwrite k x)
      ∨ (applyFound c im k).1 = im := by
  unfold applyFound
  split
  case h_1 => exact .inl rfl
  case h_2 =>
    split
    case h_1 x _ _ _ => exact .inr (.inl ⟨x, rfl⟩)
    case h_2 => exact .inr (.inr rfl)

/-- The request acts on the slot found alone (R8). -/
theorem applyFound_sameSlot (c : Context) (im : Image) {k j : Fin 5} (h : j ≠ k) :
    im.sameSlot (applyFound c im k).1 j := by
  obtain removed | ⟨x, overwritten⟩ | unchanged := applyFound_image_cases c im k
  · exact removed ▸ im.sameSlot_remove h
  · exact overwritten ▸ im.sameSlot_overwrite x h
  · exact unchanged.symm ▸ ⟨rfl, rfl⟩

/-- Settles O52: the search by its two outcomes, and the frame of what is applied to the slot found. -/
theorem searchFindsTheLowestMatch : Obligations.SearchFindsTheLowestMatch := fun im key =>
  ⟨im.search_eq_some_iff key, im.search_eq_none_iff key, fun c _ _ h => applyFound_sameSlot c im h⟩

end Sys2Proof.Machine
end

section
/-! What the Table Logic computes: the sum an ACCUMULATE writes (R30), and visit 3 of a request whose
result is pending (R26, R29). -/

namespace Sys2Proof.Machine

/-! ## Accumulation (R30) -/

/-- Word addition is the exact sum of an unsigned value and a signed delta, modulo 2^64: as an unsigned
number the delta differs from its signed reading by 0 or by 2^64. -/
theorem toNat_add_eq_emod (v delta : BitVec 64) :
    ((v + delta).toNat : Int) = ((v.toNat : Int) + delta.toInt) % 2 ^ 64 := by
  rw [BitVec.toNat_add, BitVec.toInt_eq_toNat_cond]
  split <;> omega

/-- A sum in range is a word, so that word addition gives it exactly. -/
theorem toNat_add_of_sum_in_range {v delta : BitVec 64}
    (low : 0 ≤ (v.toNat : Int) + delta.toInt)
    (high : (v.toNat : Int) + delta.toInt ≤ 2 ^ 64 - 1) :
    ((v + delta).toNat : Int) = (v.toNat : Int) + delta.toInt :=
  (toNat_add_eq_emod v delta).trans (Int.emod_eq_of_lt low (by omega))

@[simp] theorem accumulate_wrap (v delta : BitVec 64) :
    accumulate false v delta = (v + delta, .accumulated) := by
  simp [accumulate]

theorem accumulate_clamp_of_neg {v delta : BitVec 64} (h : (v.toNat : Int) + delta.toInt < 0) :
    accumulate true v delta = (0, .clamped) := by
  simp [accumulate, h]

theorem accumulate_clamp_of_overflow {v delta : BitVec 64}
    (h : 2 ^ 64 - 1 < (v.toNat : Int) + delta.toInt) :
    accumulate true v delta = (BitVec.allOnes 64, .clamped) := by
  have notNeg : ¬(v.toNat : Int) + delta.toInt < 0 := by omega
  simp only [accumulate, Bool.true_eq_false, if_false, if_neg notNeg, gt_iff_lt, if_pos h]

theorem accumulate_clamp_of_in_range {v delta : BitVec 64}
    (low : 0 ≤ (v.toNat : Int) + delta.toInt)
    (high : (v.toNat : Int) + delta.toInt ≤ 2 ^ 64 - 1) :
    accumulate true v delta = (v + delta, .accumulated) := by
  simp only [accumulate, Bool.true_eq_false, if_false, gt_iff_lt, if_neg low.not_gt,
    if_neg high.not_gt]

/-- An ACCUMULATE at the entry found overwrites its value with the accumulated one, which is also the
result value; it is modifying whatever the delta (R30). -/
theorem applyFound_accumulate {c : Context} {create clamp : Bool}
    (hkind : c.request.kind = .accumulate create clamp) (im : Image) (k : Fin 5) :
    applyFound c im k =
      (im.overwrite k (accumulate clamp im.slots[k].value c.request.operand).1, true,
        ⟨(accumulate clamp im.slots[k].value c.request.operand).2, c.at k,
          (accumulate clamp im.slots[k].value c.request.operand).1⟩) := by
  simp only [applyFound, hkind, onFound]

/-- The slot overwritten keeps its key (R30). -/
theorem Image.slots_overwrite_self (im : Image) (k : Fin 5) (x : BitVec 64) :
    (im.overwrite k x).slots[k] = ⟨im.slots[k].key, x⟩ :=
  Vector.getElem_set_self k.isLt

/-- Settles O51: the value and the code are those of `accumulate`, read off its four cases. -/
theorem accumulateWritesTheSum : Obligations.AccumulateWritesTheSum := by
  intro c im k create clamp hkind
  refine ⟨_, _, applyFound_accumulate hkind im k, im.slots_overwrite_self k _,
    fun j hj => (im.sameSlot_overwrite _ hj).1, ?wrap, ?below, ?above, ?within⟩
  case wrap =>
    rintro rfl
    rw [accumulate_wrap]
    exact ⟨toNat_add_eq_emod _ _, rfl⟩
  case below =>
    rintro rfl neg
    rw [accumulate_clamp_of_neg neg]
    exact ⟨rfl, rfl⟩
  case above =>
    rintro rfl high
    rw [accumulate_clamp_of_overflow high]
    exact ⟨BitVec.toNat_allOnes, rfl⟩
  case within =>
    rintro rfl low high
    rw [accumulate_clamp_of_in_range low high]
    exact ⟨toNat_add_of_sum_in_range low high, rfl⟩

/-! ## Visit 3 (R21, R26, R29) -/

theorem tableStep_of_keyed {c : Context} (hkeyed : c.request.kind.keyed = true) (im : Image) :
    tableStep c im = keyedStep c im := by
  cases hkind : c.request.kind with
  | lookup | insert _ | delete | accumulate _ _ => simp only [tableStep, hkind]
  | fence | flush | rawRead | rawWrite | repair => simp [hkind, Kind.keyed] at hkeyed

/-- Visit 3 with a result pending: the reservation is given back on P, and the pending result is final
(R26, R29). -/
theorem tableStep_visitThree_of_pending {c : Context} {r : Result}
    (hkeyed : c.request.kind.keyed = true) (hvisit : c.visit = .three)
    (hpending : c.pendingResult = some r) (im : Image) :
    tableStep c im = finalStep { c with reserved := false } im.release true r := by
  simp only [tableStep_of_keyed hkeyed, keyedStep, hvisit, visitThree, hpending]

/-- A spill count is lowered by one, and a count of 0 stays 0 (R15): the subtraction of naturals. -/
theorem Image.toNat_spill_release (im : Image) :
    im.release.spill.toNat = im.spill.toNat - 1 := by
  unfold Image.release
  split
  case isTrue zero => simp [zero]
  case isFalse nonzero =>
    have positive : 1 ≤ im.spill := by bv_omega
    exact BitVec.toNat_sub_of_le positive

/-- Only a visit 2 with a reservation survives its refusal; any other refused visit ends the request
POISONED (R21). -/
theorem State.refuseVisit_of_not_reserved_two {s : State} {k : SlotId} {c : Context}
    (hcontext : (s.slot k).context = some c) (h : ¬(c.visit = .two ∧ c.reserved = true)) :
    s.refuseVisit k = (s, [.finish k (.bare .poisoned)]) := by
  simp [State.refuseVisit, hcontext, h]

/-- Settles O53: the step of visit 3 by its equation, and the refusal as that of a visit other than
the second. -/
theorem deleteReturnsToItsPrimary : Obligations.DeleteReturnsToItsPrimary := by
  constructor
  · intro c im r hkind hvisit hpending
    have hkeyed : c.request.kind.keyed = true := by rw [hkind]; rfl
    rw [tableStep_visitThree_of_pending hkeyed hvisit hpending]
    exact ⟨rfl, rfl, rfl, im.toNat_spill_release⟩
  · intro s k c hcontext hvisit
    exact State.refuseVisit_of_not_reserved_two hcontext (by simp [hvisit])

end Sys2Proof.Machine
end

section
/-! The Bucket Cache after power-on reset: every set is the empty one (R62). -/

namespace Sys2Proof.Machine

@[simp] theorem CacheSet.line_empty (w : Way) : CacheSet.empty.lines[w] = Line.empty :=
  Vector.getElem_replicate w.isLt

theorem mem_allWays (w : Way) : w ∈ allWays := by
  revert w
  decide

/-- A set has no claimed line just when none of its four lines holds a claim (R42). -/
theorem CacheSet.claimed_eq_none_iff (c : CacheSet) :
    c.claimed = none ↔ ∀ w : Way, c.lines[w].claim = none := by
  simp [CacheSet.claimed, List.find?_eq_none, mem_allWays]

@[simp] theorem CacheSet.claimed_empty : CacheSet.empty.claimed = none :=
  CacheSet.empty.claimed_eq_none_iff.mpr fun w => by rw [CacheSet.line_empty]; rfl

@[simp] theorem State.cacheSet_powerOn (s : State) (i : SetId) :
    s.powerOn.cacheSet i = CacheSet.empty :=
  Vector.getElem_replicate i.isLt

@[simp] theorem State.line_powerOn (s : State) (i : SetId) (w : Way) :
    s.powerOn.line i w = Line.empty := by
  rw [State.line, State.cacheSet_powerOn, CacheSet.line_empty]

/-- Settles O3: after power-on reset every set is the empty one, whose four lines are the FREE one. -/
theorem powerOnResetEmptiesTheCache : Obligations.PowerOnResetEmptiesTheCache := by
  intro s
  refine ⟨s.powerOn, rfl, fun i w => ?lines, fun i => ?sets⟩
  case lines =>
    rw [State.line_powerOn]
    exact ⟨rfl, rfl, rfl, rfl, rfl, rfl⟩
  case sets =>
    rw [State.cacheSet_powerOn]
    exact ⟨rfl, CacheSet.claimed_empty, rfl⟩

end Sys2Proof.Machine
end

section
/-! What an event of the host's side may do: commands of the register window, ends of bus accesses.
None of them moves the table's blocks or the table identity. -/

namespace Sys2Proof.Machine

/-! ## Host steps -/

/-- What an event of the host's side may do, the start of a table aside: Table Logic, Bucket Cache,
Memory Controller, queue of commands and table identity stay, and the engine stays, becomes READY,
or moves among RUNNING, STOPPING and STALLED. -/
structure State.HostStep (s t : State) : Prop where
  tl : t.tl = s.tl
  bc : t.bc = s.bc
  mc : t.mc = s.mc
  pending : t.pending = s.pending
  identity : t.ec.identity = s.ec.identity
  engine : t.ec.engine = s.ec.engine ∨ t.ec.engine = .ready
    ∨ (s.ec.engine.serving = true ∧ t.ec.engine.serving = true)

namespace State.HostStep

theorem refl (s : State) : s.HostStep s := ⟨rfl, rfl, rfl, rfl, rfl, .inl rfl⟩

theorem trans {s t u : State} (h : s.HostStep t) (h' : t.HostStep u) : s.HostStep u where
  tl := h'.tl.trans h.tl
  bc := h'.bc.trans h.bc
  mc := h'.mc.trans h.mc
  pending := h'.pending.trans h.pending
  identity := h'.identity.trans h.identity
  engine := by
    have ready : EngineState.ready.serving = false := rfl
    obtain e | e | ⟨e, e'⟩ := h.engine <;> obtain e2 | e2 | ⟨e2, e2'⟩ := h'.engine <;>
      simp_all

/-- A fold of host steps is one. -/
theorem foldl {α : Type} {f : State → α → State} (step : ∀ s x, State.HostStep s (f s x))
    (l : List α)
    (s : State) : s.HostStep (l.foldl f s) := by
  induction l generalizing s with
  | nil => exact refl s
  | cons x l ih => exact (step s x).trans (ih (f s x))

/-! ### Reports -/

theorem statusUpdate (s : State) : s.HostStep s.statusUpdate := by constructor <;> simp

theorem raise (s : State) (cause : BitVec 5) : s.HostStep (s.raise cause) := by
  constructor <;> simp

theorem closeEvent (s : State) : s.HostStep s.closeEvent := by constructor <;> simp

theorem reportStall (s : State) (host bad : Bool) : s.HostStep (s.reportStall host bad) := by
  constructor
  case engine | identity =>
    simp only [State.reportStall, State.enterStall]
    repeat' split
    all_goals simp_all [EngineState.serving]
  all_goals simp

theorem endAccess (s : State) (tag : Nat) : s.HostStep (s.endAccess tag) := by
  constructor <;> simp

/-- The end of an access is a host step if its issuer's act is one. -/
theorem onEnd {act : BusAccess → State → State} (h : ∀ a s, State.HostStep s (act a s)) (s : State)
    (tag : Nat) (kind : AccessKind → Bool) : s.HostStep (s.onEnd tag kind act) := by
  simp only [State.onEnd]
  split
  · split
    · exact (endAccess s tag).trans (h _ _)
    · exact endAccess s tag
  · exact refl s

/-! ### The end of STOPPING -/

theorem reportEmpty (s : State) : s.HostStep s.reportEmpty := by constructor <;> simp

theorem closeChain (s : State) : s.HostStep s.closeChain := by
  constructor
  case engine | identity =>
    simp only [State.closeChain, State.closeAfterAbandon, State.closeAfterStop]
    repeat' split
    all_goals simp
  all_goals simp

theorem completeStop (s : State) : s.HostStep s.completeStop := by
  constructor
  case engine | identity =>
    simp only [State.completeStop]
    split <;> simp
  all_goals simp

theorem settleStop (s : State) : s.HostStep s.settleStop :=
  ((reportEmpty s).trans (closeChain _)).trans (completeStop _)

/-! ### The Chain Unit -/

theorem unpark (s : State) : s.HostStep s.unpark := by constructor <;> simp

theorem readLink (s : State) : s.HostStep s.readLink := by constructor <;> simp

theorem release (s : State) (a : Addr) : s.HostStep (s.release a) := by constructor <;> simp

theorem refuseBatch (s : State) : s.HostStep s.refuseBatch := 
  .trans (by constructor <;> simp) (reportStall _ _ _)

theorem readHeader (s : State) : s.HostStep s.readHeader := by
  simp only [State.readHeader]
  repeat' split
  case h_1.isTrue => exact refuseBatch s
  all_goals constructor <;> simp

theorem readRecords (s : State) : s.HostStep s.readRecords := by constructor <;> simp

theorem takeBatch (s : State) (a : Addr) (d : Block64) : s.HostStep (s.takeBatch a d) := by
  constructor <;> simp

theorem followLink (s : State) (link : Addr) : s.HostStep (s.followLink link) := by
  simp only [State.followLink, State.park]
  split
  · exact .trans (by constructor <;> simp) (readHeader _)
  · split
    · constructor <;> simp
    · split <;> constructor <;> simp

theorem beginRetirement (s : State) : s.HostStep s.beginRetirement := by constructor <;> simp

theorem retire (s : State) : s.HostStep s.retire := by
  simp only [State.retire, State.reportRetirement]
  repeat' split
  all_goals constructor <;> simp

theorem endFetch (s : State) : s.HostStep s.endFetch := by constructor <;> simp [State.endFetch]

theorem headerArrived (s : State) (a : Addr) (d : Block64) : s.HostStep (s.headerArrived a d) := by
  simp only [State.headerArrived]
  repeat' split
  · exact settleStop s
  · exact (endFetch s).trans (settleStop _)
  · exact takeBatch s a d
  · exact refuseBatch s
  · exact refl s

theorem takenWritten (s : State) : s.HostStep s.takenWritten := by
  simp only [State.takenWritten]
  split
  · exact .trans (by constructor <;> simp) (settleStop _)
  · exact settleStop s

theorem linkArrived (s : State) (link : Addr) : s.HostStep (s.linkArrived link) := by
  simp only [State.linkArrived]
  repeat' split
  · exact settleStop s
  · exact (endFetch s).trans (settleStop _)
  · exact followLink s link
  · exact refl s

theorem resultWritten (s : State) (k : SlotId) : s.HostStep (s.resultWritten k) := by
  simp only [State.resultWritten]
  split <;> exact .trans (by constructor <;> simp) (settleStop _)

theorem retirementWritten (s : State) : s.HostStep s.retirementWritten :=
  (((retire s).trans (readHeader _)).trans (beginRetirement _)).trans (settleStop _)

theorem releaseWritten (s : State) (a : Addr) : s.HostStep (s.releaseWritten a) :=
  .trans (by constructor <;> simp [State.forgetRelease]) (settleStop _)

theorem resultEnds (s : State) (kind : AccessKind) : s.HostStep (s.resultEnds kind) := by
  cases kind with
  | resultWrite k => exact resultWritten s k
  | _ => exact refl s

theorem releaseEnds (s : State) (kind : AccessKind) : s.HostStep (s.releaseEnds kind) := by
  cases kind with
  | releaseWrite a => exact releaseWritten s a
  | _ => exact refl s

theorem chainFault (s : State) (a : BusAccess) : s.HostStep (s.chainFault a) := by
  simp only [State.chainFault, State.faultAbandoned, State.rememberFault, State.reportHostFault]
  split
  · split
    all_goals exact .trans (by constructor <;> simp [State.forgetRelease]) (settleStop _)
  · split
    · exact (endFetch s).trans (settleStop _)
    · exact .trans (by constructor <;> simp) (reportStall _ _ _)

/-! ### Buffer transfers and status writes -/

theorem markTransfer (s : State) (a : BusAccess) (x : Transfer) :
    s.HostStep (s.markTransfer a x) := by
  simp only [State.markTransfer]
  split <;> constructor <;> simp

theorem bufferFault (s : State) (a : BusAccess) : s.HostStep (s.bufferFault a) := by
  simp only [State.bufferFault, State.reportHostFault]
  split
  · refine .trans ?_ (settleStop _)
    cases a.kind.bufferSlot <;> constructor <;> simp
  · exact ((markTransfer s a .faulted).trans (by constructor <;> simp)).trans (reportStall _ _ _)

theorem statusWritten (s : State) : s.HostStep s.statusWritten := by constructor <;> simp

theorem statusFaulted (s : State) : s.HostStep s.statusFaulted := by
  simp only [State.statusFaulted, State.reportHostFault, State.oweLater]
  repeat' split
  · exact .trans (by constructor <;> simp) (reportStall _ _ _)
  all_goals constructor <;> simp

theorem onStatusEnd {act : State → State} (h : ∀ s, State.HostStep s (act s)) (s : State)
    (tag : Nat) : s.HostStep (s.onStatusEnd tag act) := by
  simp only [State.onStatusEnd]
  repeat' split
  · exact (endAccess s tag).trans (h _)
  · constructor <;> simp
  · exact refl s

/-! ### Commands -/

theorem illegal (s : State) (code : Byte) : s.HostStep (s.illegal code) := by
  constructor <;> simp [State.illegal]

theorem refuseStart (s : State) (cause : RefusalCause) : s.HostStep (s.refuseStart cause) := by
  constructor <;> simp [State.refuseStart]

theorem start (s : State) : s.HostStep s.start := by
  simp only [State.start, State.readTableProfile]
  repeat' split
  case isFalse => exact illegal s 2
  case isTrue.isFalse => exact refuseStart s _
  case isTrue.isTrue => constructor <;> simp

theorem stop (s : State) : s.HostStep s.stop := by
  simp only [State.stop]
  split
  case h_1 running =>
    refine .trans ?_ (settleStop _)
    simp only [State.stopChain, State.enterStopping]
    repeat' split
    all_goals constructor <;> simp [running, EngineState.serving]
  case h_2 =>
    simp only [State.stopSweep, State.checkSweepEnd, State.endSweep]
    repeat' split
    all_goals constructor <;> simp_all
  case h_3 => exact illegal s 3

theorem abandonTable (s : State) : s.HostStep s.abandonTable := by
  have slot : ∀ (t : State) k, t.HostStep (t.abandonSlot k) := by
    intro t k
    simp only [State.abandonSlot, State.discardSlot]
    repeat' split
    all_goals constructor <;> simp
  exact (foldl slot allSlots s).trans (by constructor <;> simp [State.abandonTable])

theorem abandon (s : State) : s.HostStep s.abandon := by
  have drain : s.ec.engine.serving = true →
      s.HostStep s.enterAbandon.abandonChain.abandonTable.settleStop := by
    intro serving
    refine ((State.HostStep.trans ?_ (abandonTable _)).trans (settleStop _))
    simp only [State.enterAbandon, State.abandonChain, State.enterStopping]
    split <;> constructor <;> simp [serving, show EngineState.stopping.serving = true from rfl]
  simp only [State.abandon]
  repeat' split
  case h_1 =>
    simp only [State.stopSweep, State.checkSweepEnd, State.endSweep]
    repeat' split
    all_goals constructor <;> simp_all
  case h_4.isTrue => exact refl s
  case h_5 => exact illegal s 5
  all_goals exact drain (by simp_all [EngineState.serving])

theorem nudge (s : State) : s.HostStep s.nudge := by
  simp only [State.nudge, State.setNudge]
  repeat' split
  all_goals constructor <;> simp

theorem leaveStall {s : State} (h : s.ec.engine = .stalled) : s.HostStep s.leaveStall := by
  simp only [State.leaveStall]
  cases s.ec.resumeState <;> constructor <;> simp [h, EngineState.serving]

theorem resumeChain (s : State) : s.HostStep s.resumeChain := by
  have reissued := foldl (f := State.reissue) (fun _ _ => by constructor <;> simp)
    s.cu.faulted { s with cu := { s.cu with faulted := [] } }
  have bad : ∀ t : State, t.HostStep t.resumeBadBatch := by
    intro t
    simp only [State.resumeBadBatch]
    repeat' split
    all_goals constructor <;> simp
  have parked : ∀ t : State, t.HostStep t.resumeParked := by
    intro t
    simp only [State.resumeParked]
    split <;> constructor <;> simp
  have waiting : ∀ t : State, t.HostStep t.resumeWaiting := by
    intro t
    simp only [State.resumeWaiting]
    repeat' split
    all_goals constructor <;> simp
  have results : ∀ t : State, t.HostStep t.resumeResults := by
    intro t
    simp only [State.resumeResults]
    split
    · exact .trans (by constructor <;> simp)
        (foldl (fun _ _ => by constructor <;> simp) t.rt.unreported _)
    · exact refl t
  have releases : ∀ t : State, t.HostStep t.resumeReleases := by
    intro t
    simp only [State.resumeReleases]
    split
    · exact .trans (by constructor <;> simp) (foldl release t.cu.releasesWaiting _)
    · exact refl t
  refine .trans (by constructor <;> simp) (reissued.trans ?_)
  exact (((((((bad _).trans (parked _)).trans (waiting _)).trans (readRecords _)).trans
    (results _)).trans (readHeader _)).trans (beginRetirement _)).trans (releases _)

theorem resumeTable (s : State) : s.HostStep s.resumeTable := by
  have transfer : ∀ (t : State) k, t.HostStep (t.issueTransfer k) := by
    intro t k
    simp only [State.issueTransfer]
    repeat' split
    all_goals constructor <;> simp
  have again : ∀ (t : State) a, t.HostStep ((t.markTransfer a .outstanding).reissue a) :=
    fun t a => (markTransfer t a .outstanding).trans (by constructor <;> simp)
  refine (State.HostStep.trans ?_ (foldl again s.rt.faulted _)).trans (foldl transfer s.rt.age _)
  constructor <;> simp

theorem resume (s : State) : s.HostStep s.resume := by
  simp only [State.resume]
  split
  case isTrue stalled =>
    exact (((leaveStall (by simpa using stalled)).trans (resumeChain _)).trans
      (resumeTable _)).trans (settleStop _)
  case isFalse => exact illegal s 4

end State.HostStep

/-- The commands whose whole effect is a host step: those of the register window that start no
table, and the ends of bus accesses that neither bring a profile nor have consequences in the table.
-/
def hostEvent : Instr → Bool
  | .start | .stop | .resume | .abandon | .nudge _ | .tableProfileFault _ | .headerArrival _ _
  | .takenWriteCompletion _ | .linkArrival _ _ | .resultWriteCompletion _
  | .retirementWriteCompletion _ | .releaseWriteCompletion _ | .chainAccessFault _
  | .bufferAccessFault _ | .statusWriteCompletion _ | .statusWriteFault _ => true
  | _ => false

/-- Each of them is a host step and the end of its event. -/
theorem exec_hostEvent {c : Instr} (h : hostEvent c = true) (s : State) :
    ∃ t, exec c s = .next t.closeEvent ∧ s.HostStep t := by
  open State.HostStep in
  cases c with
  | start => exact ⟨_, rfl, start s⟩
  | stop => exact ⟨_, rfl, stop s⟩
  | resume => exact ⟨_, rfl, resume s⟩
  | abandon => exact ⟨_, rfl, abandon s⟩
  | nudge v => exact ⟨_, rfl, nudge s⟩
  | tableProfileFault tag => exact ⟨_, rfl, onEnd (fun _ _ => refuseStart _ _) _ _ _⟩
  | headerArrival tag d => exact ⟨_, rfl, onEnd (fun _ _ => headerArrived _ _ _) _ _ _⟩
  | takenWriteCompletion tag => exact ⟨_, rfl, onEnd (fun _ _ => takenWritten _) _ _ _⟩
  | linkArrival tag link => exact ⟨_, rfl, onEnd (fun _ _ => linkArrived _ _) _ _ _⟩
  | resultWriteCompletion tag => exact ⟨_, rfl, onEnd (fun _ _ => resultEnds _ _) _ _ _⟩
  | retirementWriteCompletion tag => exact ⟨_, rfl, onEnd (fun _ _ => retirementWritten _) _ _ _⟩
  | releaseWriteCompletion tag => exact ⟨_, rfl, onEnd (fun _ _ => releaseEnds _ _) _ _ _⟩
  | chainAccessFault tag => exact ⟨_, rfl, onEnd (fun _ _ => chainFault _ _) _ _ _⟩
  | bufferAccessFault tag => exact ⟨_, rfl, onEnd (fun _ _ => bufferFault _ _) _ _ _⟩
  | statusWriteCompletion tag => exact ⟨_, rfl, onStatusEnd statusWritten _ _⟩
  | statusWriteFault tag => exact ⟨_, rfl, onStatusEnd statusFaulted _ _⟩
  | _ => cases h

end Sys2Proof.Machine
end

section
/-! The laws that every event keeps (R1, R116, R119, R128, R141, R157): the bank queues under the
controller's updates, and one lemma for each shared operation up to the consequences of an event. -/

namespace Sys2Proof.Machine

/-! ## Bank queues under the controller's updates -/

@[simp] theorem State.queue_setBank (s : State) (b c : BankId) (x : Bank) :
    ((s.setBank b x).bank c).queue = if c = b then x.queue else (s.bank c).queue := by
  split
  case isTrue h => rw [h, State.bank_setBank_self]
  case isFalse h => rw [State.bank_setBank_of_ne s x h]

@[simp] theorem State.queue_modifyBank (s : State) (b c : BankId) (f : Bank → Bank) :
    ((s.modifyBank b f).bank c).queue = if c = b then (f (s.bank b)).queue else (s.bank c).queue :=
  s.queue_setBank b c _

/-- What leaves the banks alone leaves their queues alone. -/
theorem State.bank_of_banks {s t : State} (h : t.mc.banks = s.mc.banks) (b : BankId) :
    t.bank b = s.bank b := by
  simp only [State.bank, h]

@[simp] theorem State.queue_wakeBank (s : State) (b c : BankId) :
    ((s.wakeBank b).bank c).queue = (s.bank c).queue := by
  refine (s.queue_modifyBank b c fun x => { x with idleClose := .stopped }).trans ?_
  split <;> simp_all

@[simp] theorem State.queue_fallIdle (s : State) (b c : BankId) :
    ((s.fallIdle b).bank c).queue = (s.bank c).queue := by
  simp only [State.fallIdle]
  repeat' split
  case h_1.isTrue =>
    rw [State.queue_modifyBank]
    split <;> simp_all
  all_goals rfl

@[simp] theorem State.queue_closeBank (s : State) (b c : BankId) :
    ((s.closeBank b).bank c).queue = (s.bank c).queue := by
  refine (s.queue_modifyBank b c fun x =>
    { x with
      state := .closing, closeWait := s.timer MemoryProfile.closeWait, idleClose :=
        .stopped }).trans ?_
  split <;> simp_all

theorem State.queue_accept (s : State) (t : Transaction) (c : BankId) :
    ((s.accept t).bank c).queue = if c = t.place.bank then
      (s.bank c).queue ++ [⟨t, 1, 0, s.mc.nextAge, false, .stopped, false⟩]
    else (s.bank c).queue := by
  refine (((s.modifyBank t.place.bank fun x => { x with
    queue := x.queue ++ [⟨t, 1, 0, s.mc.nextAge, false, .stopped, false⟩] }).queue_wakeBank
      t.place.bank c).trans (s.queue_modifyBank _ _ _)).trans ?_
  split <;> simp_all

theorem State.queue_retryAccess (s : State) (b : BankId) (a : Access) (c : BankId) :
    ((s.retryAccess b a).bank c).queue = if c = b then
      { a with issued := false, attempt := a.attempt + 1, alert := .stopped } ::
        (s.bank b).queue.filter fun c => c.age != a.age
    else (s.bank c).queue := by
  rw [State.retryAccess, State.queue_wakeBank, State.queue_modifyBank]

@[simp] theorem State.fallIdle_mc_owed (s : State) (b : BankId) :
    (s.fallIdle b).mc.owed = s.mc.owed := by
  simp only [State.fallIdle]
  repeat' split
  all_goals simp

@[simp] theorem State.handOver_mc_owed (s : State) (t : Transaction) :
    (s.handOver t).mc.owed = s.mc.owed := by
  simp only [State.handOver]
  split <;> simp

/-! ## The law of the queues -/

theorem State.queueLaw_of_queue {s t : State} (h : s.queueLaw)
    (same : ∀ b, (t.bank b).queue = (s.bank b).queue) : t.queueLaw := by
  intro b
  simpa only [Bank.queueLaw, same b] using h b

/-- The law where one bank has changed. -/
theorem State.queueLaw_of_bank {s t : State} (h : s.queueLaw) {b : BankId}
    (changed : (t.bank b).queueLaw) (same : ∀ c, c ≠ b → (t.bank c).queue = (s.bank c).queue) :
    t.queueLaw := by
  intro c
  by_cases e : c = b
  · exact e ▸ changed
  · simpa only [Bank.queueLaw, same c e] using h c

/-- Dropping accesses keeps a bank's law. -/
theorem Bank.queueLaw_of_sublist {x y : Bank} (h : x.queueLaw) (sub : y.queue.Sublist x.queue) :
    y.queueLaw :=
  ⟨sub.length_le.trans h.1, fun a ha => h.2 a (sub.subset ha)⟩

/-- An accepted access finds a place (R119). -/
theorem State.queueLaw_accept {s : State} (h : s.queueLaw) (t : Transaction)
    (room : s.hasRoom t.place.bank = true) : (s.accept t).queueLaw := by
  refine State.queueLaw_of_bank h (b := t.place.bank) ?_ fun c e => by simp [State.queue_accept, e]
  have few : (s.bank t.place.bank).queue.length < 16 := of_decide_eq_true room
  simp only [Bank.queueLaw, State.queue_accept, if_true, List.length_append, List.length_singleton,
    List.mem_append, List.mem_singleton]
  refine ⟨by omega, ?_⟩
  rintro a (ha | rfl)
  · exact (h _).2 a ha
  · simp

/-- A retried access takes its own place again, within the limits of its counts (R121). -/
theorem State.queueLaw_retryAccess {s : State} (h : s.queueLaw) (b : BankId) (a : Access)
    (there : ∃ c ∈ (s.bank b).queue, c.age = a.age) (overtaken : a.overtaken ≤ 8)
    (attempt : a.attempt < 3) : (s.retryAccess b a).queueLaw := by
  refine State.queueLaw_of_bank h (b := b) ?_ fun c e => by simp [State.queue_retryAccess, e]
  obtain ⟨c, hc, age⟩ := there
  have fewer : ((s.bank b).queue.filter fun c => c.age != a.age).length < (s.bank b).queue.length :=
    List.length_filter_lt_length_iff_exists.mpr ⟨c, hc, by simp [age]⟩
  simp only [Bank.queueLaw, State.queue_retryAccess, if_true, List.length_cons, List.mem_cons]
  refine ⟨by have := (h b).1; omega, ?_⟩
  rintro x (rfl | hx)
  · exact ⟨overtaken, by simp, attempt⟩
  · exact (h b).2 x (List.mem_of_mem_filter hx)

/-! ## What every event keeps -/

/-- From `s` to `t` the queue of commands stays, and the laws of the identity, of the owed count, of
the poison list, of the size and of the bank queues each stand if they stood. -/
structure State.KeepsLaws (s t : State) : Prop where
  pending : t.pending = s.pending
  identity : s.identityLaw → t.identityLaw
  owed : s.owedLaw → t.owedLaw
  poison : s.poisonLaw → t.poisonLaw
  size : s.sizeLaw → t.sizeLaw
  queue : s.queueLaw → t.queueLaw

theorem State.identityLaw_of_eq {s t : State} (h : s.identityLaw)
    (engine : t.ec.engine = s.ec.engine) (identity : t.ec.identity = s.ec.identity) :
    t.identityLaw := by
  simpa only [State.identityLaw, engine, identity] using h

/-- In the states before START and after a table is given up the law asks nothing. -/
theorem State.identityLaw_of_idle {t : State} (clearing : t.ec.engine ≠ .clearing)
    (serving : t.ec.engine.serving = false) : t.identityLaw :=
  ⟨fun h => absurd h clearing, fun h => by simp [serving] at h⟩

theorem State.HostStep.identityLaw {s t : State} (h : s.HostStep t) (law : s.identityLaw) :
    t.identityLaw := by
  obtain same | ready | ⟨before, after⟩ := h.engine
  · exact State.identityLaw_of_eq law same h.identity
  · exact State.identityLaw_of_idle (by simp [ready]) (by rw [ready]; rfl)
  · refine ⟨fun clearing => ?_, fun _ => by rw [h.identity]; exact law.2 before⟩
    rw [clearing] at after
    cases after

namespace State.KeepsLaws

theorem refl (s : State) : s.KeepsLaws s := ⟨rfl, id, id, id, id, id⟩

theorem trans {s t u : State} (h : s.KeepsLaws t) (h' : t.KeepsLaws u) : s.KeepsLaws u where
  pending := h'.pending.trans h.pending
  identity := h'.identity ∘ h.identity
  owed := h'.owed ∘ h.owed
  poison := h'.poison ∘ h.poison
  size := h'.size ∘ h.size
  queue := h'.queue ∘ h.queue

theorem after {s t u : State} (h : t.KeepsLaws u) (h' : s.KeepsLaws t) : s.KeepsLaws u := h'.trans h

theorem foldl {α : Type} {f : State → α → State} (step : ∀ s x, State.KeepsLaws s (f s x))
    (l : List α) (s : State) : s.KeepsLaws (l.foldl f s) := by
  induction l generalizing s with
  | nil => exact refl s
  | cons x l ih => exact (step s x).trans (ih (f s x))

/-- What moves none of the fields that the laws read keeps them. -/
theorem of_eq {s t : State} (pending : t.pending = s.pending)
    (engine : t.ec.engine = s.ec.engine) (identity : t.ec.identity = s.ec.identity)
    (owed : t.mc.owed = s.mc.owed) (poison : t.bc.poison = s.bc.poison) (tl : t.tl = s.tl)
    (queue : ∀ b, (t.bank b).queue = (s.bank b).queue) : s.KeepsLaws t where
  pending := pending
  identity law := State.identityLaw_of_eq law engine identity
  owed law := by simpa only [State.owedLaw, owed] using law
  poison law := by simpa only [State.poisonLaw, poison] using law
  size law := by simpa only [State.sizeLaw, tl] using law
  queue law := State.queueLaw_of_queue law queue

/-- The same with a change of queues that keeps their law. -/
theorem of_queueLaw {s t : State} (queue : s.queueLaw → t.queueLaw)
    (pending : t.pending = s.pending)
    (engine : t.ec.engine = s.ec.engine) (identity : t.ec.identity = s.ec.identity)
    (owed : t.mc.owed = s.mc.owed) (poison : t.bc.poison = s.bc.poison) (tl : t.tl = s.tl) :
    s.KeepsLaws t where
  pending := pending
  identity law := State.identityLaw_of_eq law engine identity
  owed law := by simpa only [State.owedLaw, owed] using law
  poison law := by simpa only [State.poisonLaw, poison] using law
  size law := by simpa only [State.sizeLaw, tl] using law
  queue := queue

theorem of_host {s t : State} (h : s.HostStep t) : s.KeepsLaws t where
  pending := h.pending
  identity := h.identityLaw
  owed law := by simpa only [State.owedLaw, h.mc] using law
  poison law := by simpa only [State.poisonLaw, h.bc] using law
  size law := by simpa only [State.sizeLaw, h.tl] using law
  queue law := State.queueLaw_of_queue law fun b =>
    congrArg Bank.queue (State.bank_of_banks (congrArg _ h.mc) b)

/-! ### Accesses handed over, accepted and ended -/

theorem accept (s : State) (t : Transaction) (room : s.hasRoom t.place.bank = true) :
    s.KeepsLaws (s.accept t) :=
  of_queueLaw (State.queueLaw_accept · t room) (by simp) (by simp) (by simp) (by simp) (by simp)
    (by simp)

theorem handOver (s : State) (t : Transaction) : s.KeepsLaws (s.handOver t) := by
  simp only [State.handOver]
  split
  case isTrue may =>
    simp only [Bool.and_eq_true] at may
    exact accept s t may.1.2
  case isFalse => exact of_eq rfl rfl rfl rfl rfl rfl fun _ => rfl

theorem handSweepWrite (s : State) : s.KeepsLaws s.handSweepWrite := by
  refine trans ?_ (handOver _ _)
  exact of_eq rfl rfl rfl rfl rfl rfl fun _ => rfl

theorem pumpSweep (n : Nat) (s : State) : s.KeepsLaws (State.pumpSweep n s) := by
  induction n generalizing s with
  | zero => exact refl s
  | succ n ih =>
    rw [State.pumpSweep]
    split
    · exact (handSweepWrite s).trans (ih _)
    · exact refl s

theorem continueSweep (s : State) : s.KeepsLaws s.continueSweep := pumpSweep _ s

theorem resumeAccepting (s : State) : s.KeepsLaws s.resumeAccepting := by
  simp only [State.resumeAccepting]
  split
  · refine .trans (.trans (of_eq ?_ ?_ ?_ ?_ ?_ ?_ ?_) (foldl handOver s.mc.waits _))
      (continueSweep _)
    all_goals first | rfl | exact fun _ => rfl
  · exact refl s

theorem acceptWaiting (s : State) (b : BankId) : s.KeepsLaws (s.acceptWaiting b) := by
  simp only [State.acceptWaiting]
  split
  case isFalse => exact refl s
  case isTrue may =>
    split
    case h_2 => exact refl s
    case h_1 t found =>
      have place : t.place.bank = b := by simpa using List.find?_some found
      have accepted := accept { s with mc := { s.mc with
        waits := s.mc.waits.eraseP fun u => u.place.bank == b } } t
        (by rw [place]; exact (Bool.and_eq_true_iff.mp may).2)
      have taken := accepted.after (s := s) (of_eq rfl rfl rfl rfl rfl rfl fun _ => rfl)
      split
      · exact taken.trans (continueSweep _)
      · exact taken

theorem leaveQueue (s : State) (b : BankId) (age : Nat) : s.KeepsLaws (s.leaveQueue b age) := by
  refine trans ?_ (acceptWaiting _ b)
  refine of_queueLaw (fun law => ?_) rfl rfl rfl rfl rfl rfl
  refine State.queueLaw_of_bank law (b := b)
    (Bank.queueLaw_of_sublist (law b) ?_) fun c e => by simp [e]
  simp

/-- A retry keeps the laws where the access is one of its bank's queue, also once others have been
retried (R121). -/
theorem retryAccess {s t : State} (h : s.KeepsLaws t) {b : BankId} {a : Access}
    (there : ∃ c ∈ (t.bank b).queue, c.age = a.age) (mem : a ∈ (s.bank b).queue)
    (attempt : a.attempt < 3) : s.KeepsLaws (t.retryAccess b a) where
  pending := h.pending
  identity law := State.identityLaw_of_eq (h.identity law) rfl rfl
  owed := h.owed
  poison := h.poison
  size := h.size
  queue law := State.queueLaw_retryAccess (h.queue law) b a there ((law b).2 a mem).1 attempt

/-! ### The clear sweep, poisoning, the discard -/

/-- The entry to RUNNING keeps the laws where the identity has been set (R157). -/
theorem enterRunning {s t : State} (identity : t.ec.identity.isSome = true)
    (pending : t.pending = s.pending) (mc : t.mc = s.mc) (bc : t.bc = s.bc) (tl : t.tl = s.tl) :
    s.KeepsLaws t.enterRunning := by
  refine trans ?_
    (of_host ((State.HostStep.statusUpdate _).trans (State.HostStep.readHeader _)))
  exact {
    pending := pending
    identity := fun _ => ⟨nofun, fun _ => identity⟩
    owed := fun law => by simpa only [State.owedLaw, mc] using law
    poison := fun law => by simpa only [State.poisonLaw, bc] using law
    size := fun law => by simpa only [State.sizeLaw, tl] using law
    queue := fun law => State.queueLaw_of_queue law fun b =>
      congrArg Bank.queue (State.bank_of_banks (s := s) (congrArg MemoryController.banks mc) b) }

theorem endSweep (s : State) : s.KeepsLaws s.endSweep := by
  simp only [State.endSweep]
  split
  · exact (of_host (State.HostStep.raise _ _)).after (enterRunning rfl rfl rfl rfl rfl)
  · refine trans ?_
      (of_host ((State.HostStep.statusUpdate _).trans (State.HostStep.raise _ _)))
    exact { refl s with identity := fun _ => State.identityLaw_of_idle nofun rfl }

theorem checkSweepEnd (s : State) : s.KeepsLaws s.checkSweepEnd := by
  simp only [State.checkSweepEnd]
  split
  · exact endSweep s
  · exact refl s

theorem sweepWriteEnded (s : State) : s.KeepsLaws s.sweepWriteEnded := by
  refine trans ?_ (checkSweepEnd _)
  exact of_eq rfl rfl rfl rfl rfl rfl fun _ => rfl

theorem count (s : State) (f : Counters → Counters) : s.KeepsLaws (s.count f) :=
  of_eq rfl rfl rfl rfl rfl rfl fun _ => rfl

theorem poisonBucket (s : State) (b : Bucket) (reason : PoisonReason) :
    s.KeepsLaws (s.poisonBucket b reason) := by
  refine trans ?_ (of_host ((State.HostStep.statusUpdate _).trans (State.HostStep.raise _ _)))
  refine trans ?_ (count _ _)
  refine { refl s with poison := fun law => ?_ }
  simp only [State.poisonLaw, Config.poisonLimit] at law ⊢
  by_cases few : s.bc.poison.length < 32
  · simp [few]
  · simpa [few] using law

theorem unlist (s : State) (b : Bucket) : s.KeepsLaws (s.unlist b) := by
  simp only [State.unlist]
  split
  · refine trans ?_ (of_host (State.HostStep.statusUpdate _))
    exact { refl s with poison := fun law => (List.length_filter_le _ _).trans law }
  · exact refl s

theorem checkDiscard (s : State) : s.KeepsLaws s.checkDiscard := by
  simp only [State.checkDiscard]
  repeat' split
  · refine trans ?_ (continueSweep _)
    exact of_eq rfl rfl rfl rfl rfl rfl fun _ => rfl
  · exact endSweep s
  · exact refl s

/-! ### The cache -/

/-- Replacing the sets of the cache moves nothing the laws read. -/
theorem putSet (s : State) (i : SetId) (c : CacheSet) : s.KeepsLaws (s.putSet i c) :=
  of_eq rfl rfl rfl rfl rfl rfl fun _ => rfl

theorem setLine (s : State) (i : SetId) (w : Way) (l : Line) : s.KeepsLaws (s.setLine i w l) :=
  putSet s i _

theorem handLineWrite (s : State) (i : SetId) (w : Way) : s.KeepsLaws (s.handLineWrite i w) :=
  handOver s _

theorem modifyThrough (s : State) (i : SetId) (w : Way) (k : SlotId) (im : Image) :
    s.KeepsLaws (s.modifyThrough i w k im) := by
  simp only [State.modifyThrough]
  split
  case h_3 => exact setLine s i w _
  all_goals exact ((setLine s i w _).trans (count _ _)).trans (handLineWrite _ i w)

theorem setSlot (s : State) (k : SlotId) (x : Slot) : s.KeepsLaws (s.setSlot k x) :=
  of_eq rfl rfl rfl rfl rfl rfl fun _ => rfl

theorem settleStop (s : State) : s.KeepsLaws s.settleStop := of_host (State.HostStep.settleStop s)

theorem freeSlot (s : State) (k : SlotId) : s.KeepsLaws (s.freeSlot k) :=
  of_eq rfl rfl rfl rfl rfl rfl fun _ => rfl

theorem issue (s : State) (kind : AccessKind) (addr : Addr) (size : Nat) (data : List Byte) :
    s.KeepsLaws (s.issue kind addr size data) :=
  of_eq rfl rfl rfl rfl rfl rfl fun _ => rfl

theorem startStore (s : State) (k : SlotId) : s.KeepsLaws (s.startStore k) := by
  simp only [State.startStore]
  repeat' split
  · exact (freeSlot s k).trans (settleStop _)
  · exact (setSlot s k _).trans (issue _ _ _ _ _)
  · exact setSlot s k _

theorem applyStep (s : State) (i : SetId) (w : Way) (k : SlotId) (kind : Kind) (out : StepResult) :
    s.KeepsLaws (s.applyStep i w k kind out).1 := by
  simp only [State.applyStep]
  repeat' split
  · exact setLine s i w _
  · exact refl s
  · exact startStore s k
  · exact refl s
  · exact (modifyThrough s i w k _).trans (setSlot _ k _)
  · exact setLine s i w _

theorem stepOn (s : State) (i : SetId) (w : Way) (k : SlotId) : s.KeepsLaws (s.stepOn i w k).1 := by
  simp only [State.stepOn]
  split
  · refine ((trans ?_ (setSlot _ k _)).trans (putSet _ i _)).trans (applyStep _ i w k _ _)
    split
    · exact unlist s _
    · exact refl s
  · exact refl s

theorem allocate (s : State) (i : SetId) (w : Way) (k : SlotId) :
    s.KeepsLaws (s.allocate i w k).1 := by
  simp only [State.allocate]
  split
  · exact (((unlist s _).trans (setLine _ i w _)).trans (putSet _ i _)).trans (stepOn _ i w k)
  · exact ((((setLine s i w _).trans (putSet _ i _)).trans (putSet _ i _)).trans
      (count _ _)).trans (handOver _ _)

theorem castout (s : State) (i : SetId) (w : Way) (k : SlotId) : s.KeepsLaws (s.castout i w k) :=
  ((setLine s i w _).trans (count _ _)).trans (handLineWrite _ i w)

theorem takeLine_getD {s t : State} {tasks : List Task} (h : s.KeepsLaws t) (k : SlotId) :
    s.KeepsLaws ((s.takeLine k).getD (t, tasks)).1 := by
  simp only [State.takeLine]
  split
  · exact allocate s _ _ k
  · exact castout s _ _ k
  · exact h

theorem takeLine {s : State} {k : SlotId} {p : State × List Task} (h : s.takeLine k = some p) :
    s.KeepsLaws p.1 := by
  simpa [h] using takeLine_getD (tasks := []) (refl s) k

theorem hit (s : State) (i : SetId) (w : Way) (k : SlotId) : s.KeepsLaws (s.hit i w k).1 := by
  simp only [State.hit]
  split <;> exact setLine s i w _

theorem obtainLine (s : State) (k : SlotId) : s.KeepsLaws (s.obtainLine k).1 := by
  simp only [State.obtainLine]
  split
  · exact putSet s _ _
  · exact takeLine_getD (putSet s _ _) k

theorem writeFailed (s : State) (i : SetId) (w : Way) : s.KeepsLaws (s.writeFailed i w).1 := by
  simp only [State.writeFailed]
  repeat' split
  · exact (setLine s i w _).trans (checkDiscard _)
  · exact (poisonBucket s _ _).trans (setLine _ i w _)
  · exact refl s

theorem writeCompleted (s : State) (i : SetId) (w : Way) :
    s.KeepsLaws (s.writeCompleted i w).1 := by
  simp only [State.writeCompleted]
  repeat' split
  · exact (setLine s i w _).trans (checkDiscard _)
  · exact (setLine s i w _).trans (allocate _ i w _)
  · exact setLine s i w _
  · exact refl s
  · exact refl s

theorem lookAtNext (s : State) (i : SetId) (w : Way) : s.KeepsLaws (s.lookAtNext i w).1 := by
  simp only [State.lookAtNext]
  repeat' split
  · exact ((setLine s i w _).trans (count _ _)).trans (handLineWrite _ i w)
  · exact (setLine s i w _).trans (handLineWrite _ i w)
  · exact setLine s i w _
  · exact refl s

theorem fillFailed (s : State) (i : SetId) (w : Way) : s.KeepsLaws (s.fillFailed i w).1 := by
  simp only [State.fillFailed]
  split
  · exact (poisonBucket s _ _).trans (setLine _ i w _)
  · exact refl s

theorem fillCompleted (s : State) (i : SetId) (w : Way) (im : Image) :
    s.KeepsLaws (s.fillCompleted i w im).1 := by
  simp only [State.fillCompleted]
  split
  · exact setLine s i w _
  · exact refl s

theorem executeHead (s : State) (i : SetId) (w : Way) : s.KeepsLaws (s.executeHead i w).1 := by
  simp only [State.executeHead]
  split
  · exact refl s
  · split
    · exact (stepOn s i w _).trans (setLine _ i w _)
    · exact refl s

theorem startFlush (s : State) (k : SlotId) : s.KeepsLaws (s.startFlush k) := by
  have line : ∀ (t : State) (p : SetId × Way), t.KeepsLaws (t.flushLine p.1 p.2) := by
    intro t p
    simp only [State.flushLine]
    split
    · exact (setLine t _ _ _).trans (handLineWrite _ _ _)
    · exact refl t
  unfold State.startFlush
  exact (foldl line _ _).after (of_eq rfl rfl rfl rfl rfl rfl fun _ => rfl)

/-! ### The Request Table -/

theorem finishSlot (s : State) (k : SlotId) (r : Result) : s.KeepsLaws (s.finishSlot k r) := by
  simp only [State.finishSlot, State.reportResult]
  repeat' split
  · exact (freeSlot s k).trans (settleStop _)
  · exact ((setSlot s k _).trans (setSlot _ k _)).trans (issue _ _ _ _ _)
  · exact of_eq rfl rfl rfl rfl rfl rfl fun _ => rfl

theorem treat (s : State) (k : SlotId) (d : Block64) : s.KeepsLaws (s.treat k d).1 := by
  simp only [State.treat, State.letIn, State.takeHold, State.startLoad]
  repeat' split
  all_goals first | exact refl s | (refine of_eq ?_ ?_ ?_ ?_ ?_ ?_ ?_ <;> simp [State.bank])

end State.KeepsLaws

/-- Every consequence keeps the laws. -/
theorem runTask_keepsLaws (t : Task) (s : State) : s.KeepsLaws (runTask t s).1 := by
  open State.KeepsLaws in
  cases t with
  | arrive k =>
    simp only [runTask, State.arriveVisit, State.arriveRawWrite, State.arriveRepair,
      State.arriveOrdinary]
    repeat' split
    all_goals first | exact refl s | exact hit s _ _ k | exact obtainLine s k
  | refuse k =>
    simp only [runTask, State.refuseVisit]
    repeat' split
    all_goals first | exact refl s | exact setSlot s k _
  | finish k r =>
    simp only [runTask, State.finishRequest]
    split
    · refine (finishSlot s k r).trans ?_
      exact of_eq rfl rfl rfl rfl rfl rfl fun _ => rfl
    · exact finishSlot s k r
  | dispatch k =>
    simp only [runTask, State.dispatchRequest]
    repeat' split
    · exact refl s
    · dsimp only
      exact (startFlush (s.setVisiting k _) k).after (setSlot s k _)
    · exact setSlot s k _
    · exact refl s
  | consider =>
    simp only [runTask, State.considerNext]
    repeat' split
    · exact (setSlot s _ _).trans (treat _ _ _)
    all_goals exact refl s
  | owner =>
    simp only [runTask, State.checkOwner]
    repeat' split
    all_goals exact refl s
  | retry i =>
    simp only [runTask, State.retrySet]
    split
    · exact refl s
    · repeat' split
      case h_1 taken => exact (takeLine taken).after (putSet s i _)
      all_goals first | exact refl s | exact putSet s i _
  | rechoose k => exact takeLine_getD (putSet s _ _) k
  | flushCheck =>
    simp only [runTask, State.checkFlush]
    repeat' split
    all_goals exact of_eq rfl rfl rfl rfl rfl rfl fun _ => rfl
  | lineLost i w => exact writeFailed s i w
  | leaveList i w k => exact setLine s i w _
  | lookNext i w => exact lookAtNext s i w

/-- A settled event keeps the laws if its own act does. -/
theorem settle_keepsLaws {s u : State} {p : State × List Task} (h : s.KeepsLaws p.1)
    (settled : settle p = some u) : s.KeepsLaws u :=
  settle_induction (P := s.KeepsLaws) (fun t _ hv => hv.trans (runTask_keepsLaws t _))
    (fun _ hv => hv.trans (.of_host (State.HostStep.closeEvent _))) h settled

end Sys2Proof.Machine
end

section
/-! The laws of every command: the devices' reports, the timers, the arbiter, the commands of the
window. -/

namespace Sys2Proof.Machine
namespace State.KeepsLaws

/-! ### Ends of device accesses -/

theorem failBringup (s : State) (cause : FailureCause) : s.KeepsLaws (s.failBringup cause) := by
  simp only [State.failBringup]
  refine trans ?_ (of_host ((State.HostStep.statusUpdate _).trans (State.HostStep.raise _ _)))
  exact { refl s with identity := fun _ => State.identityLaw_of_idle nofun rfl }

theorem handProbe (s : State) (i : Nat) (found : List (Option Marker)) :
    s.KeepsLaws (s.handProbe i found) := by
  simp only [State.handProbe]
  split
  · exact (handOver _ _).after (of_eq rfl rfl rfl rfl rfl rfl fun _ => rfl)
  · exact refl s

theorem finishBringup (s : State) (rows : Nat) : s.KeepsLaws (s.finishBringup rows) := by
  simp only [State.finishBringup]
  refine trans ?_ (of_host ((State.HostStep.statusUpdate _).trans (State.HostStep.raise _ _)))
  exact {
    refl s with
    identity := fun _ => State.identityLaw_of_idle nofun rfl
    owed := fun _ => Nat.zero_le _
    poison := fun _ => Nat.zero_le _ }

theorem probeRead (s : State) (im : Image) : s.KeepsLaws (s.probeRead im) := by
  simp only [State.probeRead, State.judgeProbe]
  repeat' split
  · exact finishBringup s _
  · exact failBringup s _
  · exact handProbe s _ _
  · exact refl s

theorem probeWritten (s : State) : s.KeepsLaws s.probeWritten := by
  simp only [State.probeWritten]
  split
  · exact handProbe s _ _
  · exact refl s

theorem patternArrived (s : State) (i : Nat) (d : Block128) :
    s.KeepsLaws (s.patternArrived i d) := by
  simp only [State.patternArrived]
  repeat' split
  · exact of_eq rfl rfl rfl rfl rfl rfl fun _ => rfl
  · exact (handProbe _ _ _).after (of_eq rfl rfl rfl rfl rfl rfl fun _ => rfl)
  · exact (failBringup _ _).after (of_eq rfl rfl rfl rfl rfl rfl fun _ => rfl)

theorem readDelivered (s : State) (r : Requester) (im : Image) :
    s.KeepsLaws (s.readDelivered r im).1 := by
  cases r with
  | line i w => exact fillCompleted s i w im
  | sweep => exact refl s
  | bringup => exact probeRead s im

theorem readLost (s : State) (r : Requester) : s.KeepsLaws (s.readLost r).1 := by
  cases r with
  | line i w => exact fillFailed s i w
  | sweep => exact refl s
  | bringup => exact failBringup s _

theorem writeDelivered (s : State) (r : Requester) : s.KeepsLaws (s.writeDelivered r).1 := by
  cases r with
  | line i w => exact writeCompleted s i w
  | sweep => exact sweepWriteEnded s
  | bringup => exact probeWritten s

theorem writeLost (s : State) (a : Access) : s.KeepsLaws (s.writeLost a).1 := by
  simp only [State.writeLost]
  repeat' split
  · exact refl s
  · exact failBringup s _
  · exact (poisonBucket s _ _).trans (sweepWriteEnded _)
  · exact sweepWriteEnded s

/-! ### Read data and write alerts -/

theorem readArrived (s : State) {b : BankId} {a : Access} (mem : a ∈ (s.bank b).queue)
    (im : Image) :
    s.KeepsLaws (s.readArrived b a im).1 := by
  simp only [State.readArrived]
  split
  · exact leaveQueue s b _
  split
  · exact (leaveQueue s b _).trans (readDelivered _ _ _)
  split
  case isTrue first =>
    have retried := retryAccess (refl s) ⟨a, mem, rfl⟩ mem (by omega)
    simp only [State.retryRead]
    split
    · exact retried
    · exact retried.trans (count _ _)
  · exact (leaveQueue s b _).trans (readLost _ _)

theorem dataArrived (s : State) (d : Block128) : s.KeepsLaws (s.dataArrived d).1 := by
  simp only [State.dataArrived]
  split
  · exact refl s
  · split
    · exact of_eq rfl rfl rfl rfl rfl rfl fun _ => rfl
    · exact (patternArrived _ _ _).after (of_eq rfl rfl rfl rfl rfl rfl fun _ => rfl)
  · split
    case h_1 found =>
      exact (readArrived _ (List.mem_of_find?_eq_some found) _).after
        (of_eq rfl rfl rfl rfl rfl rfl fun _ => rfl)
    · exact of_eq rfl rfl rfl rfl rfl rfl fun _ => rfl

end State.KeepsLaws

/-- Bank `b`'s queue holds an access of this age. -/
def State.holdsAge (s : State) (b : BankId) (age : Nat) : Prop :=
  ∃ c ∈ (s.bank b).queue, c.age = age

/-- A retry leaves an access of every age that a queue held (R121). -/
theorem State.holdsAge_retryAccess {s : State} {c : BankId} {age : Nat} (h : s.holdsAge c age)
    (b : BankId) (a : Access) : (s.retryAccess b a).holdsAge c age := by
  obtain ⟨x, mem, rfl⟩ := h
  rw [State.holdsAge, State.queue_retryAccess]
  split
  case isFalse => exact ⟨x, mem, rfl⟩
  case isTrue same =>
    subst same
    by_cases e : x.age = a.age
    · exact ⟨_, List.mem_cons_self, e.symm⟩
    · exact ⟨x, List.mem_cons_of_mem _ (List.mem_filter.mpr ⟨mem, by simpa using e⟩), rfl⟩

theorem State.retryWrite_bank (s : State) (b : BankId) (a : Access) (c : BankId) :
    (s.retryWrite b a).bank c = (s.retryAccess b a).bank c := by
  simp only [State.retryWrite]
  split <;> rfl

/-- The retries of an alert: all of them, the last of the list first. -/
def State.retryWrites (s : State) (l : List (BankId × Access)) : State :=
  l.foldr (fun x t => t.retryWrite x.1 x.2) s

theorem State.holdsAge_retryWrites {s : State} {c : BankId} {age : Nat} (h : s.holdsAge c age)
    (l : List (BankId × Access)) : (s.retryWrites l).holdsAge c age := by
  induction l with
  | nil => exact h
  | cons x l ih =>
    have := State.holdsAge_retryAccess ih x.1 x.2
    simpa only [State.holdsAge, State.retryWrites, List.foldr_cons, State.retryWrite_bank]
      using this

/-- The accesses of `insertByAge` are those inserted and those there. -/
theorem mem_insertByAge {p x : BankId × Access} {l : List (BankId × Access)} :
    x ∈ insertByAge p l ↔ x = p ∨ x ∈ l := by
  induction l with
  | nil => simp [insertByAge]
  | cons q l ih =>
    simp only [insertByAge]
    split
    · simp
    · simp [ih]
      tauto

/-- Ordering by age neither adds nor drops a write. -/
@[simp] theorem mem_byAge {x : BankId × Access} {l : List (BankId × Access)} :
    x ∈ byAge l ↔ x ∈ l := by
  induction l with
  | nil => simp [byAge]
  | cons p l ih =>
    rw [byAge, List.foldr_cons, mem_insertByAge, ← byAge, ih, List.mem_cons]

theorem mem_allBanks (b : BankId) : b ∈ allBanks := by
  revert b
  decide

/-- The writes with an open alert window are the accesses of the banks' queues whose ALERT_WAIT runs
(R115). -/
theorem State.mem_openWindows {s : State} {b : BankId} {a : Access} :
    (b, a) ∈ s.openWindows ↔ a ∈ (s.bank b).queue ∧ a.alert.isRunning = true := by
  simp [State.openWindows, mem_allBanks]

namespace State.KeepsLaws

theorem retryWrites {s : State} {l : List (BankId × Access)}
    (mem : ∀ x ∈ l, x.2 ∈ (s.bank x.1).queue) (attempt : ∀ x ∈ l, x.2.attempt < 3) :
    s.KeepsLaws (s.retryWrites l) := by
  induction l with
  | nil => exact refl s
  | cons x l ih =>
    have rest := ih (fun y hy => mem y (.tail _ hy)) (fun y hy => attempt y (.tail _ hy))
    have here : x.2 ∈ (s.bank x.1).queue := mem x (.head _)
    have retried := retryAccess rest
      (State.holdsAge_retryWrites ⟨x.2, here, rfl⟩ l) here (attempt x (.head _))
    simp only [State.retryWrites, List.foldr_cons, State.retryWrite]
    split
    · exact retried
    · exact retried.trans (count _ _)

theorem endAlerted (p : State × List Task) (x : BankId × Access) :
    p.1.KeepsLaws (State.endAlerted p x).1 := by
  simp only [State.endAlerted]
  split
  · exact leaveQueue p.1 _ _
  · exact (leaveQueue p.1 _ _).trans (writeLost _ _)

theorem alerted (s : State) : s.KeepsLaws s.alerted.1 := by
  have ended : ∀ (l : List (BankId × Access)) (p : State × List Task),
      p.1.KeepsLaws (l.foldl State.endAlerted p).1 := by
    intro l
    induction l with
    | nil => exact fun p => refl p.1
    | cons x l ih => exact fun p => (endAlerted p x).trans (ih _)
  refine (ended _ (s.retryWrites ((byAge s.openWindows).filter fun x => x.2.retries), [])).after
    (retryWrites ?_ ?_)
  · intro x hx
    exact (State.mem_openWindows.mp (mem_byAge.mp (List.mem_of_mem_filter hx))).1
  · intro x hx
    have := (List.mem_filter.mp hx).2
    simp only [Access.retries, Bool.and_eq_true, decide_eq_true_eq] at this
    exact this.2

theorem windowClosed (s : State) (age : Nat) : s.KeepsLaws (s.windowClosed age).1 := by
  simp only [State.windowClosed]
  repeat' split
  · exact leaveQueue s _ _
  · exact (leaveQueue s _ _).trans (writeDelivered _ _)
  · exact refl s

/-! ### Timers -/

/-- A change of a bank that leaves its queue. -/
theorem modifyBank (s : State) (b : BankId) {f : Bank → Bank}
    (h : (f (s.bank b)).queue = (s.bank b).queue) :
    s.KeepsLaws (s.modifyBank b f) := by
  refine of_eq rfl rfl rfl rfl rfl rfl fun c => ?_
  rw [State.queue_modifyBank]
  split <;> simp_all

theorem fallIdle (s : State) (b : BankId) : s.KeepsLaws (s.fallIdle b) := by
  refine of_eq ?_ ?_ ?_ ?_ ?_ ?_ fun _ => State.queue_fallIdle s b _
  all_goals simp

theorem closeBank (s : State) (b : BankId) : s.KeepsLaws (s.closeBank b) :=
  of_eq rfl rfl rfl rfl rfl rfl fun _ => State.queue_closeBank s b _

theorem openWaitExpired (s : State) (b : BankId) : s.KeepsLaws (s.openWaitExpired b) := by
  simp only [State.openWaitExpired]
  repeat' split
  · exact ((modifyBank s b rfl).trans (modifyBank _ b rfl)).trans (fallIdle _ b)
  · exact modifyBank s b rfl
  · exact refl s

theorem closeWaitExpired (s : State) (b : BankId) : s.KeepsLaws (s.closeWaitExpired b) := by
  simp only [State.closeWaitExpired]
  split
  · exact (resumeAccepting _).after (modifyBank s b rfl)
  · exact refl s

theorem idleCloseExpired (s : State) (b : BankId) : s.KeepsLaws (s.idleCloseExpired b) := by
  simp only [State.idleCloseExpired]
  split
  · refine (modifyBank s b (f := fun x => { x with idleClose := .stopped }) rfl).trans ?_
    exact of_eq rfl rfl rfl rfl rfl rfl fun _ => rfl
  · exact refl s

theorem refreshWaitExpired (s : State) : s.KeepsLaws s.refreshWaitExpired := by
  simp only [State.refreshWaitExpired]
  split
  case isFalse => exact refl s
  case isTrue =>
    refine trans ?_ (resumeAccepting _)
    refine { refl s with
      owed := fun law => (Nat.sub_le _ _).trans law
      queue := fun law => State.queueLaw_of_queue law fun b => ?_ }
    simp only [State.bank, Bank.endRefresh, Fin.getElem_fin, Vector.getElem_map]

theorem refreshPeriodExpired (s : State) : s.KeepsLaws s.refreshPeriodExpired := by
  simp only [State.refreshPeriodExpired]
  repeat' split
  case isTrue.isTrue few => exact { refl s with owed := fun _ => few }
  all_goals exact of_eq rfl rfl rfl rfl rfl rfl fun _ => rfl

theorem resetHoldExpired (s : State) : s.KeepsLaws s.resetHoldExpired := by
  simp only [State.resetHoldExpired, State.endDeviceReset]
  repeat' split
  all_goals exact of_eq rfl rfl rfl rfl rfl rfl fun _ => rfl

theorem modeGapExpired (s : State) : s.KeepsLaws s.modeGapExpired := by
  simp only [State.modeGapExpired]
  repeat' split
  all_goals exact of_eq rfl rfl rfl rfl rfl rfl fun _ => rfl

theorem deviceResetPhase (s : State) : s.KeepsLaws s.deviceResetPhase := by
  simp only [State.deviceResetPhase]
  split
  case isFalse => exact refl s
  case isTrue =>
    refine trans ?_ (resumeAccepting _)
    refine of_queueLaw (fun _ b => ?_) rfl rfl rfl rfl rfl rfl
    have : (s.beginDeviceReset.bank b) = Bank.empty := Vector.getElem_replicate b.isLt
    rw [this]
    exact ⟨Nat.zero_le _, nofun⟩

/-! ### The arbiter -/

theorem closeOpenBanks (s : State) : s.KeepsLaws s.closeOpenBanks := by
  refine foldl (fun t b => ?_) allBanks s
  split
  · exact closeBank t b
  · exact refl t

theorem refreshBanks (s : State) : s.KeepsLaws s.refreshBanks := by
  have timer : ∀ (t : State) (x : Timer), t.KeepsLaws
      { t with mc := { t.mc with refreshWait := x } } :=
    fun _ _ => of_eq rfl rfl rfl rfl rfl rfl fun _ => rfl
  exact (timer _ _).after (foldl (fun t b => modifyBank t b rfl) allBanks s)

end State.KeepsLaws

/-- The age of no access matters for who stands barred but that of the access itself (R123). -/
theorem State.barred_of_age (s : State) (b : BankId) {a c : Access} (h : a.age = c.age) :
    s.barred b a = s.barred b c := by
  simp only [State.barred, h]

/-- A column command is chosen only for an access that no overtaken one bars (R123). -/
theorem State.not_barred_of_nextCommand {s : State} {b c : BankId} {a : Access} {age : Nat}
    (h : s.nextCommand b a = some (.column c age)) :
    c = b ∧ a.age = age ∧ s.barred b a = false := by
  simp only [State.nextCommand] at h
  split at h
  · split at h
    · split at h
      case isTrue gates =>
        simp only [State.canColumn, Bool.and_eq_true] at gates
        simp only [Option.some.injEq, Choice.column.injEq] at h
        exact ⟨h.1.symm, h.2, by simpa using gates.1.2⟩
      case isFalse => cases h
    · split at h <;> cases h
  · split at h <;> cases h
  · cases h

/-- A choice among the banks is the candidate of one of them (R122). -/
theorem oldestOf_eq_some {f : BankId → Option (Nat × Choice)} {c : Choice}
    (h : oldestOf f = some c) : ∃ b n, f b = some (n, c) := by
  have fold : ∀ (l : List (Option (Nat × Choice))) (x : Option (Nat × Choice)),
      l.foldl older x = x ∨ l.foldl older x ∈ l := by
    intro l
    induction l with
    | nil => exact fun x => .inl rfl
    | cons y l ih =>
      intro x
      have pick : older x y = x ∨ older x y = y := by
        cases x with
        | none => exact .inr rfl
        | some p =>
          cases y with
          | none => exact .inl rfl
          | some q =>
            simp only [older]
            split
            · exact .inr rfl
            · exact .inl rfl
      rw [List.foldl_cons]
      obtain same | mem := ih (older x y)
      · obtain e | e := pick
        · exact .inl (same.trans e)
        · exact .inr (by rw [same, e]; exact .head _)
      · exact .inr (.tail _ mem)
  simp only [oldestOf, Option.map_eq_some_iff] at h
  obtain ⟨⟨n, d⟩, chosen, rfl⟩ := h
  obtain none | mem := fold (allBanks.map f) none
  · rw [none] at chosen
    cases chosen
  · rw [chosen] at mem
    obtain ⟨b, -, hb⟩ := List.mem_map.mp mem
    exact ⟨b, n, hb⟩

/-- The chosen column command is that of an access which no overtaken one bars (R121 to R123). -/
theorem State.not_barred_of_choose {s : State} {b : BankId} {age : Nat}
    (h : s.choose = some (.column b age)) : ∃ a : Access, a.age = age ∧ s.barred b a = false := by
  simp only [State.choose, Option.or_eq_some_iff] at h
  obtain one | ⟨-, two | ⟨-, three | ⟨-, four | ⟨-, five | ⟨-, six⟩⟩⟩⟩⟩ := h
  · simp only [State.classOne] at one
    split at one
    · cases one
    · split at one <;> cases one
  · obtain ⟨c, n, two⟩ := oldestOf_eq_some two
    simp only [State.classTwoAt] at two
    obtain ⟨a, -, two⟩ := List.exists_of_findSome?_eq_some two
    split at two
    · simp only [Option.map_eq_some_iff, Prod.mk.injEq] at two
      obtain ⟨d, next, -, rfl⟩ := two
      obtain ⟨rfl, age, free⟩ := State.not_barred_of_nextCommand next
      exact ⟨a, age, free⟩
    · cases two
  · obtain ⟨c, n, three⟩ := oldestOf_eq_some three
    simp only [State.classThreeAt, Option.map_eq_some_iff, Prod.mk.injEq] at three
    obtain ⟨a, found, -, same⟩ := three
    cases same
    have gates := List.find?_some found
    simp only [State.canColumn, Bool.and_eq_true] at gates
    exact ⟨a, rfl, by simpa using gates.1.2⟩
  · obtain ⟨c, n, four⟩ := oldestOf_eq_some four
    simp only [State.classFourAt] at four
    split at four
    · split at four <;> cases four
    · cases four
  · obtain ⟨c, n, five⟩ := oldestOf_eq_some five
    simp only [State.classFiveAt] at five
    split at five
    · split at five <;> cases five
    · cases five
  · simp only [State.classSix, Option.map_eq_some_iff] at six
    obtain ⟨_, -, six⟩ := six
    cases six

/-- The column command overtakes within the limit where no access that it passes has reached it
(R123). -/
theorem overtaken_le_of_mem_issuedQueue {age : Nat} {alert : Timer} {l : List Access}
    (free : ∀ a ∈ l.takeWhile fun c => c.age != age, a.issued = false → a.overtaken ≠ 8)
    (law : ∀ a ∈ l, a.overtaken ≤ 8 ∧ 1 ≤ a.attempt ∧ a.attempt ≤ 3) :
    ∀ a ∈ issuedQueue age alert l, a.overtaken ≤ 8 ∧ 1 ≤ a.attempt ∧ a.attempt ≤ 3 := by
  induction l with
  | nil => exact nofun
  | cons x l ih =>
    intro a ha
    simp only [issuedQueue] at ha
    split at ha
    case isTrue =>
      obtain rfl | ha := List.mem_cons.mp ha
      · exact law x (.head _)
      · exact law a (.tail _ ha)
    case isFalse ne =>
      rw [List.takeWhile_cons_of_pos (by simpa using ne)] at free
      obtain rfl | ha := List.mem_cons.mp ha
      · have limits := law x (.head _)
        split
        case isTrue => exact limits
        case isFalse unissued =>
          have := free x (.head _) (by simpa using unissued)
          exact ⟨by simp only; omega, limits.2⟩
      · exact ih (fun a ha => free a (.tail _ ha)) (fun a ha => law a (.tail _ ha)) a ha

@[simp] theorem length_issuedQueue (age : Nat) (alert : Timer) (l : List Access) :
    (issuedQueue age alert l).length = l.length := by
  induction l with
  | nil => rfl
  | cons x l ih =>
    simp only [issuedQueue]
    split <;> simp [ih]

namespace State.KeepsLaws

theorem markIssued (s : State) (b : BankId) (a : Access) (free : s.barred b a = false) :
    s.KeepsLaws (s.markIssued b a) := by
  have issued : ∀ alert : Timer, s.KeepsLaws (s.modifyBank b fun x =>
      { x with queue := issuedQueue a.age alert x.queue }) := by
    intro alert
    refine of_queueLaw (fun law => ?_) rfl rfl rfl rfl rfl rfl
    refine State.queueLaw_of_bank law (b := b) ?_ fun c e => by simp [e]
    simp only [State.barred, List.any_eq_false, Bool.and_eq_true, Bool.not_eq_true', beq_iff_eq,
      Config.overtakenLimit, not_and] at free
    simp only [Bank.queueLaw, State.queue_modifyBank, if_true, length_issuedQueue]
    exact ⟨(law b).1, overtaken_le_of_mem_issuedQueue free (law b).2⟩
  simp only [State.markIssued]
  split
  · exact issued _
  · exact (issued _).trans (of_eq rfl rfl rfl rfl rfl rfl fun _ => rfl)

theorem issueColumn (s : State) (b : BankId) (a : Access) (free : s.barred b a = false) :
    s.KeepsLaws (s.issueColumn b a) := by
  have started : ∀ (t : State) g w d, t.KeepsLaws ((t.startGaps g w).drive d) :=
    fun _ _ _ _ => of_eq rfl rfl rfl rfl rfl rfl fun _ => rfl
  have issued := (markIssued s b a free).trans
    (started _ (groupOf b) a.body.direction.isWrite (columnCommand b a (s.closingForm b a)))
  simp only [State.issueColumn]
  split
  · exact issued.trans (closeBank _ b)
  · exact issued.trans (fallIdle _ b)

theorem issueChoice {s : State} {c : Choice} (h : s.choose = some c) :
    s.KeepsLaws (s.issueChoice c) := by
  have drive : ∀ (t : State) d, t.KeepsLaws (t.drive d) :=
    fun _ _ => of_eq rfl rfl rfl rfl rfl rfl fun _ => rfl
  cases c with
  | closeAll => exact (closeOpenBanks s).trans (drive _ _)
  | refresh => exact (refreshBanks s).trans (drive _ _)
  | close b => exact (closeBank s b).trans (drive _ _)
  | openRow b r => exact (drive _ _).after (modifyBank s b rfl)
  | column b age =>
    simp only [State.issueChoice]
    split
    case h_1 a found =>
      obtain ⟨c, rfl, free⟩ := State.not_barred_of_choose h
      have same : a.age = c.age := by simpa using List.find?_some found
      exact issueColumn s b a ((s.barred_of_age b same).trans free)
    case h_2 => exact refl s

theorem arbitrate (s : State) : s.KeepsLaws s.arbitrate := by
  simp only [State.arbitrate]
  split
  case h_1 chosen => exact issueChoice chosen
  case h_2 =>
    split
    case isFalse => exact refl s
    case isTrue =>
      cases chosen : State.choose { s with mc := { s.mc with committed := true } } with
      | none => exact of_eq rfl rfl rfl rfl rfl rfl fun _ => rfl
      | some c =>
        exact (issueChoice chosen).after (of_eq rfl rfl rfl rfl rfl rfl fun _ => rfl)

/-! ### Commands -/

theorem bringup (s : State) : s.KeepsLaws s.bringup := by
  simp only [State.bringup]
  split
  case isFalse => exact of_host (State.HostStep.illegal s 1)
  case isTrue =>
    have probing : s.KeepsLaws s.enterProbing := by
      refine trans ?_ (of_host (State.HostStep.statusUpdate _))
      exact { refl s with identity := fun _ => State.identityLaw_of_idle nofun rfl }
    refine probing.trans ?_
    simp only [State.readMemoryProfile]
    split
    · exact of_eq rfl rfl rfl rfl rfl rfl fun _ => rfl
    · exact failBringup _ _

theorem beginClearing (s : State) : s.KeepsLaws s.beginClearing := by
  refine trans ?_ (checkDiscard _)
  refine trans ?_ (of_host (State.HostStep.statusUpdate _))
  exact { refl s with
    identity := fun _ => ⟨fun _ => rfl, nofun⟩
    poison := fun _ => Nat.zero_le _ }

end State.KeepsLaws

/-- The size of a well-formed profile lies in its range (R1, R152). -/
theorem TableProfile.size_of_wellFormed {p : TableProfile} {rows : Option Nat}
    (h : p.wellFormed rows = true) : 10 ≤ p.size ∧ p.size ≤ 24 := by
  simp only [TableProfile.wellFormed, Bool.and_eq_true] at h
  obtain ⟨low, high⟩ := Bool.and_eq_true_iff.mp h.1.1.1.1.1.1.1
  exact ⟨of_decide_eq_true low, of_decide_eq_true high⟩

namespace State.KeepsLaws

theorem takeProfile (s : State) {p : TableProfile} (h : p.wellFormed s.mc.rows = true) :
    s.KeepsLaws (s.takeProfile p) :=
  { of_eq rfl rfl rfl rfl rfl rfl (fun _ => rfl) (s := s)
      (t := { s with cu := (s.takeProfile p).cu, ec := (s.takeProfile p).ec }) with
    poison := id
    queue := fun law => law
    size := fun _ => TableProfile.size_of_wellFormed h }

theorem judgeProfile (s : State) (p : TableProfile) : s.KeepsLaws (s.judgeProfile p) := by
  have refused := fun cause => of_host (State.HostStep.refuseStart s cause)
  simp only [State.judgeProfile]
  split
  case isTrue => exact refused _
  case isFalse good =>
    have taken := takeProfile s (p := p) (by simpa using good)
    repeat' split
    case isTrue => exact taken.trans (beginClearing _)
    case isFalse.isTrue same =>
      refine taken.trans (enterRunning ?_ rfl rfl rfl rfl)
      have : s.ec.identity = some p.identity := by simpa using same
      simp [this]
    case isFalse.isFalse => exact refused _

theorem tableProfileArrived (s : State) (d : Block64) : s.KeepsLaws (s.tableProfileArrived d) :=
  (judgeProfile _ _).after (of_eq rfl rfl rfl rfl rfl rfl fun _ => rfl)

theorem memoryProfileArrived (s : State) (d : Block64) :
    s.KeepsLaws (s.memoryProfileArrived d) := by
  simp only [State.memoryProfileArrived]
  split
  · exact of_eq rfl rfl rfl rfl rfl rfl fun _ => rfl
  · exact failBringup s _

theorem engineReset (s : State) : s.KeepsLaws s.engineReset := by
  refine trans ?_ (resumeAccepting _)
  refine ⟨rfl, fun law => ?_, fun law => ?_, id, id, fun law b => ?_⟩
  · refine State.identityLaw_of_idle ?_ ?_
    all_goals
      simp only [EngineControl.engineReset]
      cases s.ec.engine <;> simp [EngineState.afterReset, EngineState.serving]
  · simp only [State.owedLaw, MemoryController.engineReset, MemoryController.stopBringup] at law ⊢
    split <;> exact law
  · have kept : (s.mc.engineReset (s.ec.engine == .probing)).banks[b] = (s.bank b).keepIssued := by
      simp only [MemoryController.engineReset, MemoryController.stopBringup, State.bank]
      split <;> exact Vector.getElem_map ..
    simp only [State.bank, kept]
    refine ⟨?_, fun a ha => ?_⟩
    · simp only [Bank.keepIssued, List.length_map]
      exact (List.length_filter_le _ _).trans (law b).1
    · obtain ⟨c, hc, rfl⟩ := List.mem_map.mp ha
      exact (law b).2 c (List.mem_of_mem_filter hc)

theorem powerOn (s : State) : s.KeepsLaws s.powerOn where
  pending := rfl
  identity _ := State.identityLaw_of_idle nofun rfl
  owed _ := Nat.zero_le _
  poison _ := Nat.zero_le _
  size _ := ⟨le_rfl, Nat.le_of_ble_eq_true rfl⟩
  queue _ b := by
    have : s.powerOn.bank b = Bank.empty := Vector.getElem_replicate b.isLt
    rw [this]
    exact ⟨Nat.zero_le _, nofun⟩

theorem commandArrival (s : State) (v : Word) : s.KeepsLaws (s.commandArrival v) := by
  simp only [State.commandArrival]
  split
  · exact bringup s
  · exact of_host (State.HostStep.start s)
  · exact of_host (State.HostStep.stop s)
  · exact of_host (State.HostStep.resume s)
  · exact of_host (State.HostStep.abandon s)
  · exact engineReset s
  · exact of_host (State.HostStep.illegal s _)

theorem writeRegister (s : State) (offset : Nat) (v : Word) (enables : BitVec 4) :
    s.KeepsLaws (s.writeRegister offset v enables) := by
  simp only [State.writeRegister, State.writeCause, State.writeMask]
  split
  case h_1 =>
    split
    · exact commandArrival s v
    · exact refl s
  case h_2 =>
    split
    · exact refl s
    · exact of_host (State.HostStep.nudge s)
  case h_7 => exact refl s
  all_goals split <;> exact of_eq rfl rfl rfl rfl rfl rfl fun _ => rfl

/-- The end of an access keeps the laws if its issuer's act does. -/
theorem onEnd {act : BusAccess → State → State} (h : ∀ a s, State.KeepsLaws s (act a s)) (s : State)
    (tag : Nat) (kind : AccessKind → Bool) : s.KeepsLaws (s.onEnd tag kind act) := by
  have ended : s.KeepsLaws (s.endAccess tag) := of_host (State.HostStep.endAccess s tag)
  simp only [State.onEnd]
  repeat' split
  · exact ended.trans (h _ _)
  · exact ended
  · exact refl s

theorem onEndTasks {act : BusAccess → State → State × List Task}
    (h : ∀ a s, State.KeepsLaws s (act a s).1) (s : State) (tag : Nat) (kind : AccessKind → Bool) :
    s.KeepsLaws (s.onEndTasks tag kind act).1 := by
  have ended : s.KeepsLaws (s.endAccess tag) := of_host (State.HostStep.endAccess s tag)
  simp only [State.onEndTasks]
  repeat' split
  · exact ended.trans (h _ _)
  · exact ended
  · exact refl s

theorem recordEnds (s : State) (kind : AccessKind) (d : Block64) :
    s.KeepsLaws (s.recordEnds kind d).1 := by
  simp only [State.recordEnds, State.recordArrived]
  split
  · split
    · exact (freeSlot s _).trans (settleStop _)
    · exact setSlot s _ _
  · exact refl s

theorem loadEnds (s : State) (kind : AccessKind) (d : Block128) :
    s.KeepsLaws (s.loadEnds kind d).1 := by
  simp only [State.loadEnds, State.bufferLoaded]
  split
  · split
    · exact (freeSlot s _).trans (settleStop _)
    · exact setSlot s _ _
  · exact refl s

theorem storeEnds (s : State) (kind : AccessKind) : s.KeepsLaws (s.storeEnds kind).1 := by
  simp only [State.storeEnds]
  split <;> exact refl s

theorem closeEvent {s t : State} (h : s.KeepsLaws t) : s.KeepsLaws t.closeEvent :=
  h.trans (of_host (State.HostStep.closeEvent t))

end State.KeepsLaws

/-- An event with consequences that answers a next state has settled in it, and keeps the laws if
its own act does. -/
theorem keepsLaws_of_outcome {s t : State} {p : State × List Task}
    (h : outcomeOf (settle p) = .next t) (act : s.KeepsLaws p.1) : s.KeepsLaws t :=
  settle_keepsLaws act (outcomeOf_eq_next h)

/-- Every command keeps the queue of commands, and each of the laws that stood. -/
theorem exec_keepsLaws {c : Instr} {s t : State} (h : exec c s = .next t) : s.KeepsLaws t := by
  open State.KeepsLaws in
  by_cases host : hostEvent c = true
  · obtain ⟨u, next, step⟩ := exec_hostEvent host s
    rw [next] at h
    cases h
    exact of_host (step.trans (State.HostStep.closeEvent u))
  cases c with
  | recordArrival tag d => exact keepsLaws_of_outcome h (onEndTasks (fun _ _ => recordEnds _ _ _)
    _ _ _)
  | loadCompletion tag d => exact keepsLaws_of_outcome h (onEndTasks (fun _ _ => loadEnds _ _ _)
    _ _ _)
  | storeCompletion tag => exact keepsLaws_of_outcome h (onEndTasks (fun _ _ => storeEnds _ _)
    _ _ _)
  | readDataArrival d =>
    exact keepsLaws_of_outcome h ((dataArrived s d).trans (resumeAccepting _))
  | writeAlert => exact keepsLaws_of_outcome h ((alerted s).trans (resumeAccepting _))
  | alertWaitExpiry age =>
    exact keepsLaws_of_outcome h ((windowClosed s age).trans (resumeAccepting _))
  | stepExecution i w => exact keepsLaws_of_outcome h (executeHead s i w)
  | powerOnReset => cases h; exact powerOn s
  | bringup => cases h; exact closeEvent (bringup s)
  | reset => cases h; exact closeEvent (engineReset s)
  | illegalCommand value => cases h; exact closeEvent (commandArrival s value)
  | intcauseWrite v e => 
    cases h
    simp only [State.writeCause]
    split <;> exact of_eq rfl rfl rfl rfl rfl rfl fun _ => rfl
  | intmaskWrite v e => 
    cases h
    simp only [State.writeMask]
    split <;> exact of_eq rfl rfl rfl rfl rfl rfl fun _ => rfl
  | registerWrite o v e => cases h; exact closeEvent (writeRegister s o v e)
  | memoryProfileArrival tag d =>
    cases h
    exact closeEvent (onEnd (fun _ _ => memoryProfileArrived _ _) _ _ _)
  | memoryProfileFault tag => cases h; exact closeEvent (onEnd (fun _ _ => failBringup _ _) _ _ _)
  | tableProfileArrival tag d =>
    cases h
    exact closeEvent (onEnd (fun _ _ => tableProfileArrived _ _) _ _ _)
  | openWaitExpiry b => cases h; exact openWaitExpired s b
  | holdMinExpiry b => cases h; exact modifyBank s b rfl
  | closeWaitExpiry b => cases h; exact closeWaitExpired s b
  | idleCloseExpiry b => cases h; exact idleCloseExpired s b
  | refreshWaitExpiry => cases h; exact refreshWaitExpired s
  | refreshPeriodExpiry => cases h; exact refreshPeriodExpired s
  | gapNearExpiry g | gapFarExpiry g | turnGapExpiry =>
    cases h
    exact of_eq rfl rfl rfl rfl rfl rfl fun _ => rfl
  | resetHoldExpiry => cases h; exact resetHoldExpired s
  | modeGapExpiry => cases h; exact modeGapExpired s
  | deviceResetPhase => cases h; exact deviceResetPhase s
  | arbiterIssue => cases h; exact arbitrate s
  | _ => exact absurd rfl host

end Sys2Proof.Machine
end

section
/-! The law of the claims (R44, R52, R69) under every command. -/

namespace Sys2Proof.Machine

/-! ## The law of the claims, command by command -/

/-- What a clearing START discards is no claimed line: a claimed line is WRITING (R52, R61). -/
theorem CacheSet.claimLaw_discard {c : CacheSet} (h : c.claimLaw) : c.discard.claimLaw := by
  have line : ∀ w : Way, c.discard.lines[w] =
      if c.lines[w].state == .clean || c.lines[w].state == .dirty then Line.empty else c.lines[w] :=
    fun w => Vector.getElem_map ..
  have claimed : ∀ w : Way, c.discard.lines[w].claim.isSome = true →
      c.lines[w].claim.isSome = true ∧ c.discard.lines[w] = c.lines[w] := by
    intro w hw
    rw [line w] at hw ⊢
    split at hw
    · cases hw
    · exact ⟨hw, if_neg ‹_›⟩
  refine ⟨fun v w hv hw => h.1 v w (claimed v hv).1 (claimed w hw).1, fun w hw => ?_⟩
  obtain ⟨before, same⟩ := claimed w hw
  rw [same]
  exact h.2 w before

theorem CacheSet.claimLaw_empty : CacheSet.empty.claimLaw := by
  have none : ∀ w : Way, CacheSet.empty.lines[w].claim = none := by
    intro w
    rw [CacheSet.line_empty]
    rfl
  have unclaimed : ∀ w : Way, CacheSet.empty.lines[w].claim.isSome ≠ true := by
    intro w
    rw [none w]
    decide
  exact ⟨fun v _ hv => absurd hv (unclaimed v), fun w hw => absurd hw (unclaimed w)⟩

namespace State

theorem claimLaw_resumeAccepting {s : State} (h : s.claimLaw) : s.resumeAccepting.claimLaw :=
  claimLaw_of_bc h (by simp)

theorem claimLaw_fillCompleted {s : State} (h : s.claimLaw) (i : SetId) (w : Way) (im : Image) :
    (s.fillCompleted i w im).1.claimLaw := by
  simp only [fillCompleted]
  split
  case isTrue filling =>
    have state : (s.line i w).state = .filling := by simpa using filling
    have other : (s.line i w).state ≠ .writing := by rw [state]; decide
    exact claimLaw_setLine h i w (CacheSet.claim_of_state (h i) other)
  case isFalse => exact h

/-- A step is taken at the head of a waiter queue, so at an unclaimed line. -/
theorem claimLaw_executeHead {s : State} (h : s.claimLaw) (i : SetId) (w : Way) :
    (s.executeHead i w).1.claimLaw := by
  simp only [executeHead]
  split
  case h_1 => exact h
  case h_2 waiting =>
    split
    case isFalse => exact h
    case isTrue =>
      have unclaimed : (s.line i w).claim = none :=
        CacheSet.claim_of_waiters (h i)
        (by rw [show (s.cacheSet i).lines[w].waiters = _ from waiting]; simp)
      obtain ⟨law, none⟩ := claimLaw_stepOn h i w _ unclaimed
      exact claimLaw_setLine law i w none

@[simp] theorem probeRead_sets (s : State) (im : Image) :
    (s.probeRead im).bc.sets = s.bc.sets := by
  simp only [probeRead, judgeProbe, finishBringup]
  repeat' split
  all_goals simp

@[simp] theorem probeWritten_bc (s : State) : s.probeWritten.bc = s.bc := by
  simp only [probeWritten]
  split <;> simp

@[simp] theorem patternArrived_bc (s : State) (i : Nat) (d : Block128) :
    (s.patternArrived i d).bc = s.bc := by
  simp only [patternArrived]
  repeat' split
  all_goals simp

@[simp] theorem retryWrites_bc (s : State) (l : List (BankId × Access)) :
    (s.retryWrites l).bc = s.bc := by
  induction l with
  | nil => rfl
  | cons x l ih =>
    rw [retryWrites, List.foldr_cons, ← retryWrites, retryWrite]
    split <;> simpa using ih

theorem claimLaw_readArrived {s : State} (h : s.claimLaw) (b : BankId) (a : Access) (im : Image) :
    (s.readArrived b a im).1.claimLaw := by
  have left : (s.leaveQueue b a.age).claimLaw := claimLaw_of_bc h (by simp)
  simp only [readArrived]
  split
  · exact left
  split
  · cases a.body.requester with
    | line i w => exact claimLaw_fillCompleted left i w im
    | sweep => exact left
    | bringup => exact claimLaw_of_sets left (by simp [readDelivered])
  split
  · simp only [retryRead]
    split <;> exact claimLaw_of_bc h (by simp)
  · cases a.body.requester with
    | line i w => exact claimLaw_fillFailed left i w
    | sweep => exact left
    | bringup => exact claimLaw_of_bc left (by simp [readLost])

theorem claimLaw_dataArrived {s : State} (h : s.claimLaw) (d : Block128) :
    (s.dataArrived d).1.claimLaw := by
  simp only [dataArrived]
  split
  · exact h
  · refine claimLaw_of_bc h ?_
    split <;> simp
  · have popped : ∀ rest, State.claimLaw { s with mc := { s.mc with reads := rest } } :=
      fun _ => claimLaw_of_bc h rfl
    split
    · exact claimLaw_readArrived (popped _) _ _ _
    · exact popped _

theorem claimLaw_alerted {s : State} (h : s.claimLaw) : s.alerted.1.claimLaw := by
  have ended : ∀ (l : List (BankId × Access)) (p : State × List Task), p.1.claimLaw →
      (l.foldl endAlerted p).1.claimLaw := by
    intro l
    induction l with
    | nil => exact fun _ hp => hp
    | cons x l ih =>
      intro p hp
      refine ih _ (claimLaw_of_sets hp ?_)
      simp only [endAlerted, writeLost]
      repeat' split
      all_goals simp
  exact ended _ (s.retryWrites _, []) (claimLaw_of_bc h (by simp))

theorem claimLaw_windowClosed {s : State} (h : s.claimLaw) (age : Nat) :
    (s.windowClosed age).1.claimLaw := by
  simp only [windowClosed]
  split
  case h_2 => exact h
  case h_1 b a _ =>
    have left : (s.leaveQueue b age).claimLaw := claimLaw_of_bc h (by simp)
    split
    · exact left
    · cases a.body.requester with
      | line i w => exact claimLaw_writeCompleted left i w
      | sweep => exact claimLaw_of_bc left (by simp [writeDelivered])
      | bringup => exact claimLaw_of_bc left (by simp [writeDelivered])

theorem claimLaw_engineReset (s : State) : s.engineReset.claimLaw := by
  refine claimLaw_resumeAccepting fun i => ?_
  have : (Vector.replicate 128 CacheSet.empty)[i] = CacheSet.empty :=
      Vector.getElem_replicate i.isLt
  simp only [cacheSet, this]
  exact CacheSet.claimLaw_empty

/-- The discard of a clearing START keeps the law of the claims (R61). -/
theorem claimLaw_beginClearing {s : State} (h : s.claimLaw) : s.beginClearing.claimLaw := by
  have discarded : State.claimLaw { s with bc := { s.bc with
      sets := s.bc.sets.map CacheSet.discard } } := by
    intro i
    have : (s.bc.sets.map CacheSet.discard)[i] = (s.bc.sets[i]).discard := Vector.getElem_map ..
    simp only [cacheSet, this]
    exact CacheSet.claimLaw_discard (h i)
  exact claimLaw_of_sets discarded (by simp [beginClearing])

theorem claimLaw_tableProfileArrived {s : State} (h : s.claimLaw) (d : Block64) :
    (s.tableProfileArrived d).claimLaw := by
  simp only [tableProfileArrived, judgeProfile]
  repeat' split
  case isFalse.isTrue => exact claimLaw_beginClearing (claimLaw_of_sets h rfl)
  all_goals exact claimLaw_of_sets h (by simp [takeProfile])

@[simp] theorem readMemoryProfile_bc (s : State) : s.readMemoryProfile.bc = s.bc := by
  simp only [readMemoryProfile]
  split <;> simp

@[simp] theorem bringup_bc (s : State) : s.bringup.bc = s.bc := by
  simp only [bringup, enterProbing]
  split <;> simp

theorem claimLaw_commandArrival {s : State} (h : s.claimLaw) (v : Word) :
    (s.commandArrival v).claimLaw := by
  simp only [commandArrival]
  split
  · exact claimLaw_of_bc h (by simp)
  · exact claimLaw_of_bc h (HostStep.start s).bc
  · exact claimLaw_of_bc h (HostStep.stop s).bc
  · exact claimLaw_of_bc h (HostStep.resume s).bc
  · exact claimLaw_of_bc h (HostStep.abandon s).bc
  · exact claimLaw_engineReset s
  · exact claimLaw_of_bc h (HostStep.illegal s _).bc

theorem claimLaw_writeRegister {s : State} (h : s.claimLaw) (offset : Nat) (v : Word)
    (enables : BitVec 4) : (s.writeRegister offset v enables).claimLaw := by
  simp only [writeRegister, writeCause, writeMask]
  split
  case h_1 =>
    split
    · exact claimLaw_commandArrival h v
    · exact h
  case h_2 =>
    split
    · exact h
    · exact claimLaw_of_bc h (HostStep.nudge s).bc
  case h_7 => exact h
  all_goals split <;> exact claimLaw_of_bc h rfl

/-- The end of an access keeps the law if its issuer's act does. -/
theorem claimLaw_onEnd {act : BusAccess → State → State} {s : State} (h : s.claimLaw)
    (acts : ∀ a s, State.claimLaw s → (act a s).claimLaw) (tag : Nat) (kind : AccessKind → Bool) :
    (s.onEnd tag kind act).claimLaw := by
  simp only [onEnd]
  repeat' split
  · exact acts _ _ (claimLaw_of_bc h rfl)
  · exact claimLaw_of_bc h rfl
  · exact h

theorem claimLaw_onEndTasks {act : BusAccess → State → State × List Task} {s : State}
    (h : s.claimLaw) (acts : ∀ a s, (act a s).1.bc = s.bc) (tag : Nat)
    (kind : AccessKind → Bool) : (s.onEndTasks tag kind act).1.claimLaw := by
  simp only [onEndTasks]
  repeat' split
  · exact claimLaw_of_bc h (acts _ _)
  · exact claimLaw_of_bc h rfl
  · exact h

theorem recordEnds_bc (s : State) (kind : AccessKind) (d : Block64) :
    (s.recordEnds kind d).1.bc = s.bc := by
  simp only [recordEnds, recordArrived]
  split
  · split <;> simp
  · rfl

theorem loadEnds_bc (s : State) (kind : AccessKind) (d : Block128) :
    (s.loadEnds kind d).1.bc = s.bc := by
  simp only [loadEnds, bufferLoaded]
  split
  · split <;> simp
  · rfl

theorem storeEnds_bc (s : State) (kind : AccessKind) : (s.storeEnds kind).1.bc = s.bc := by
  simp only [storeEnds]
  split <;> rfl

theorem claimLaw_powerOn (s : State) : s.powerOn.claimLaw := by
  intro i
  rw [cacheSet_powerOn]
  exact CacheSet.claimLaw_empty

end State

/-- Every command keeps the law of the claims (R44, R52, R69). -/
theorem exec_claimLaw {c : Instr} {s t : State} (h : exec c s = .next t) (law : s.claimLaw) :
    t.claimLaw := by
  open State in
  have settled : ∀ {p : State × List Task}, outcomeOf (settle p) = .next t → p.1.claimLaw →
      t.claimLaw := fun h hp => settle_claimLaw hp (outcomeOf_eq_next h)
  have same : ∀ {u : State}, u.bc = s.bc → u.closeEvent.claimLaw :=
    fun h => claimLaw_of_bc law (by simpa using h)
  have closed : ∀ {u : State}, u.claimLaw → u.closeEvent.claimLaw :=
    fun h => claimLaw_of_bc h (by simp)
  by_cases host : hostEvent c = true
  · obtain ⟨u, next, step⟩ := exec_hostEvent host s
    rw [next] at h
    cases h
    exact same step.bc
  cases c with
  | recordArrival tag d =>
    exact settled h (claimLaw_onEndTasks law (fun _ _ => recordEnds_bc _ _ _) _ _)
  | loadCompletion tag d =>
    exact settled h (claimLaw_onEndTasks law (fun _ _ => loadEnds_bc _ _ _) _ _)
  | storeCompletion tag =>
    exact settled h (claimLaw_onEndTasks law (fun _ _ => storeEnds_bc _ _) _ _)
  | readDataArrival d => exact settled h (claimLaw_resumeAccepting (claimLaw_dataArrived law d))
  | writeAlert => exact settled h (claimLaw_resumeAccepting (claimLaw_alerted law))
  | alertWaitExpiry age =>
    exact settled h (claimLaw_resumeAccepting (claimLaw_windowClosed law age))
  | stepExecution i w => exact settled h (claimLaw_executeHead law i w)
  | powerOnReset => cases h; exact claimLaw_powerOn s
  | bringup => cases h; exact same (by simp)
  | reset => cases h; exact closed (claimLaw_engineReset s)
  | illegalCommand value => cases h; exact closed (claimLaw_commandArrival law value)
  | intcauseWrite v e | intmaskWrite v e =>
    cases h
    simp only [writeCause, writeMask]
    split <;> exact claimLaw_of_bc law rfl
  | registerWrite o v e => cases h; exact closed (claimLaw_writeRegister law o v e)
  | memoryProfileArrival tag d =>
    cases h
    refine closed (claimLaw_onEnd law (fun _ u hu => claimLaw_of_bc hu ?_) _ _)
    simp only [memoryProfileArrived]
    split <;> simp
  | memoryProfileFault tag =>
    cases h
    exact closed (claimLaw_onEnd law (fun _ _ hu => claimLaw_of_bc hu (by simp)) _ _)
  | tableProfileArrival tag d =>
    cases h
    exact closed (claimLaw_onEnd law (fun _ _ hu => claimLaw_tableProfileArrived hu d) _ _)
  | openWaitExpiry b =>
    cases h
    refine claimLaw_of_bc law ?_
    simp only [openWaitExpired]
    repeat' split
    all_goals simp
  | closeWaitExpiry b =>
    cases h
    refine claimLaw_of_bc law ?_
    simp only [closeWaitExpired]
    split <;> simp
  | idleCloseExpiry b =>
    cases h
    refine claimLaw_of_bc law ?_
    simp only [idleCloseExpired]
    split <;> simp
  | refreshWaitExpiry =>
    cases h
    refine claimLaw_of_bc law ?_
    simp only [refreshWaitExpired]
    split <;> simp
  | refreshPeriodExpiry =>
    cases h
    refine claimLaw_of_bc law ?_
    simp only [refreshPeriodExpired]
    repeat' split
    all_goals rfl
  | holdMinExpiry _ | gapNearExpiry _ | gapFarExpiry _ | turnGapExpiry =>
    cases h; exact claimLaw_of_bc law rfl
  | resetHoldExpiry =>
    cases h
    refine claimLaw_of_bc law ?_
    simp only [resetHoldExpired]
    repeat' split
    all_goals rfl
  | modeGapExpiry =>
    cases h
    refine claimLaw_of_bc law ?_
    simp only [modeGapExpired]
    repeat' split
    all_goals rfl
  | deviceResetPhase =>
    cases h
    refine claimLaw_of_bc law ?_
    simp only [deviceResetPhase]
    split <;> simp [beginDeviceReset]
  | arbiterIssue => cases h; exact claimLaw_of_bc law (by simp)
  | _ => exact absurd rfl host

end Sys2Proof.Machine
end

section
/-! The law of the status write (R169), and what a step is; the laws that every step keeps. -/

namespace Sys2Proof.Machine

/-! ## The law of the status write -/

/-- Whether a status write is due follows the engine state and the status update alone. -/
theorem State.statusDue_of_eq {s t : State} (engine : t.ec.engine = s.ec.engine)
    (status : t.ec.status = s.ec.status) (addr : t.ec.statusAddr = s.ec.statusAddr) :
    t.statusDue = s.statusDue := by
  simp only [State.statusDue, engine, status, addr]

/-- The sweep's hand-overs touch no more of the Engine Control than the sweep. -/
theorem State.pumpSweep_ec (n : Nat) (s : State) :
    (State.pumpSweep n s).ec = { s.ec with sweep := (State.pumpSweep n s).ec.sweep } := by
  induction n generalizing s with
  | zero => rfl
  | succ n ih =>
    rw [State.pumpSweep]
    split
    · rw [ih, State.handSweepWrite, State.handOver_ec]
    · rfl

theorem State.resumeAccepting_ec (s : State) :
    s.resumeAccepting.ec = { s.ec with sweep := s.resumeAccepting.ec.sweep } := by
  simp only [State.resumeAccepting]
  split
  · rw [State.continueSweep, State.pumpSweep_ec]
    simp only [(State.foldl_handOver_frame _ _).2.1]
  · rfl

theorem State.statusDue_resumeAccepting (s : State) : s.resumeAccepting.statusDue =
    s.statusDue := by
  have ec := s.resumeAccepting_ec
  exact State.statusDue_of_eq (by rw [ec]) (by rw [ec]) (by rw [ec])

/-- The timers, the device phases and the arbiter leave the status update alone. -/
theorem State.statusLaw_of_ec {s t : State} (law : s.statusLaw) (ec : t.ec = s.ec) : t.statusLaw :=
  (State.statusDue_of_eq (by rw [ec]) (by rw [ec]) (by rw [ec])).trans law

theorem State.statusLaw_resumeAccepting {s t : State} (law : s.statusLaw) (ec : t.ec = s.ec) :
    t.resumeAccepting.statusLaw :=
  t.statusDue_resumeAccepting.trans (State.statusLaw_of_ec law ec)

/-- Every command keeps the law of the status write: an event that may owe one ends with its issue
(R169). -/
theorem exec_statusLaw {c : Instr} {s t : State} (h : exec c s = .next t) (law : s.statusLaw) :
    t.statusLaw := by
  have settled : ∀ {p : State × List Task}, outcomeOf (settle p) = .next t → t.statusLaw :=
    fun h => settle_statusDue (outcomeOf_eq_next h)
  by_cases host : hostEvent c = true
  · obtain ⟨u, next, -⟩ := exec_hostEvent host s
    rw [next] at h
    cases h
    exact u.closeEvent_statusDue
  cases c with
  | recordArrival _ _ | loadCompletion _ _ | storeCompletion _ | readDataArrival _ | writeAlert
  | alertWaitExpiry _ | stepExecution _ _ => exact settled h
  | bringup | reset | illegalCommand _ | registerWrite _ _ _ | memoryProfileArrival _ _
  | memoryProfileFault _ | tableProfileArrival _ _ =>
    cases h
    exact State.closeEvent_statusDue _
  | powerOnReset => cases h; rfl
  | intcauseWrite v e | intmaskWrite v e =>
    cases h
    simp only [State.writeCause, State.writeMask]
    split <;> exact law
  | openWaitExpiry b =>
    cases h
    refine State.statusLaw_of_ec law ?_
    simp only [State.openWaitExpired]
    repeat' split
    all_goals simp
  | closeWaitExpiry b =>
    cases h
    simp only [State.closeWaitExpired]
    split
    · exact State.statusLaw_resumeAccepting law rfl
    · exact law
  | idleCloseExpiry b =>
    cases h
    refine State.statusLaw_of_ec law ?_
    simp only [State.idleCloseExpired]
    split <;> rfl
  | refreshWaitExpiry =>
    cases h
    simp only [State.refreshWaitExpired]
    split
    · exact State.statusLaw_resumeAccepting law rfl
    · exact law
  | refreshPeriodExpiry =>
    cases h
    simp only [State.refreshPeriodExpired]
    repeat' split
    all_goals exact law
  | holdMinExpiry _ | gapNearExpiry _ | gapFarExpiry _ | turnGapExpiry => cases h; exact law
  | resetHoldExpiry =>
    cases h
    simp only [State.resetHoldExpired]
    repeat' split
    all_goals exact law
  | modeGapExpiry =>
    cases h
    simp only [State.modeGapExpired]
    repeat' split
    all_goals exact law
  | deviceResetPhase =>
    cases h
    simp only [State.deviceResetPhase]
    split
    · exact State.statusLaw_resumeAccepting law rfl
    · exact law
  | arbiterIssue => cases h; exact State.statusLaw_of_ec law (by simp)
  | _ => exact absurd rfl host

/-! ## Steps -/

/-- A step idles, or is a command of the queue on the state with the queue's rest. -/
theorem step_cases {s t : State} (h : step s = .next t) :
    t = s ∨ ∃ c rest, s.pending = c :: rest ∧ exec c (s.withPending rest) = .next t := by
  simp only [step] at h
  split at h
  case h_1 =>
    cases h
    exact .inl rfl
  case h_2 c rest waiting => exact .inr ⟨c, rest, waiting, h⟩

/-- Settles O2: a field of what every command keeps. -/
theorem everyCommandKeepsTheQueue : Obligations.EveryCommandKeepsTheQueue :=
  fun _ _ _ h => (exec_keepsLaws h).pending

/-- Settles O57: one of the laws that every command keeps. -/
theorem everyStepKeepsTheIdentityLaw : Obligations.EveryStepKeepsTheIdentityLaw := by
  intro s t law h
  obtain rfl | ⟨c, rest, -, next⟩ := step_cases h
  · exact law
  · exact (exec_keepsLaws next).identity law

/-- Settles O59: the queues among the laws of every command; the claims by the cache's own
induction. -/
theorem everyStepKeepsTheQueueLaw : Obligations.EveryStepKeepsTheQueueLaw := by
  intro s t h
  obtain rfl | ⟨c, rest, -, next⟩ := step_cases h
  · exact ⟨id, id⟩
  · exact ⟨fun law => (exec_keepsLaws next).queue law, fun law => exec_claimLaw next law⟩

/-- Settles O60: every event that may owe a status write ends by closing. -/
theorem everyStepKeepsTheStatusLaw : Obligations.EveryStepKeepsTheStatusLaw := by
  intro s t law h
  obtain rfl | ⟨c, rest, -, next⟩ := step_cases h
  · exact law
  · exact exec_statusLaw next law

end Sys2Proof.Machine
end

section
/-! The open batches and the header reads (R97, R98, R106) under the host's events. -/

namespace Sys2Proof.Machine

/-! ## Open batches and header reads -/

/-- The access is outstanding, or remembered as faulted. -/
def State.knows (s : State) (a : BusAccess) : Prop :=
  a ∈ s.bi.accesses ∨ a ∈ s.cu.faulted ∨ a ∈ s.rt.faulted

/-- What every event but a header arrival does for the open batches: the law of the batches stands
if it stood, no batch is opened, and a header read that was neither outstanding nor remembered
before is issued only while fewer than 8 are open (R97, R98). -/
structure State.ChainStep (s t : State) : Prop where
  law : s.batchLaw → t.batchLaw
  fewer : t.cu.batches.length ≤ s.cu.batches.length
  known : ∀ a : BusAccess, a.kind = .headerRead → a.live = true → t.knows a →
    s.knows a ∨ t.cu.batches.length < 8

namespace State.ChainStep

theorem refl (s : State) : s.ChainStep s := ⟨id, le_rfl, fun _ _ _ h => .inl h⟩

theorem trans {s t u : State} (h : s.ChainStep t) (h' : t.ChainStep u) : s.ChainStep u where
  law := h'.law ∘ h.law
  fewer := h'.fewer.trans h.fewer
  known a header live mem := by
    obtain mem | few := h'.known a header live mem
    · exact (h.known a header live mem).imp_right fun few => lt_of_le_of_lt h'.fewer few
    · exact .inr few

theorem after {s t u : State} (h : t.ChainStep u) (h' : s.ChainStep t) : s.ChainStep u := h'.trans h

theorem foldl {α : Type} {f : State → α → State} (step : ∀ s x, State.ChainStep s (f s x))
    (l : List α) (s : State) : s.ChainStep (l.foldl f s) := by
  induction l generalizing s with
  | nil => exact refl s
  | cons x l ih => exact (step s x).trans (ih (f s x))

/-- What neither opens a batch nor adds a header read to those known. -/
theorem of_le {s t : State} (batches : t.cu.batches.length ≤ s.cu.batches.length)
    (reads : t.headerReads ≤ s.headerReads)
    (known : ∀ a : BusAccess, a.kind = .headerRead → a.live = true → t.knows a → s.knows a)
    (table : ∀ a ∈ t.rt.faulted, a ∈ s.rt.faulted ∨ a.kind ≠ .headerRead) : s.ChainStep t where
  law law := State.batchLaw_of_le law batches reads fun a ha =>
    (table a ha).elim (law.2.2.2 a) id
  fewer := batches
  known a header live mem := .inl (known a header live mem)

/-- What adds accesses of other kinds alone. -/
theorem of_append {s t : State} {l : List BusAccess}
    (accesses : t.bi.accesses = s.bi.accesses ++ l) (kinds : ∀ a ∈ l, a.kind ≠ .headerRead)
    (batches : t.cu.batches.length = s.cu.batches.length) (faulted : t.cu.faulted = s.cu.faulted)
    (table : t.rt.faulted = s.rt.faulted) : s.ChainStep t := by
  refine of_le batches.le ?_ (fun a header _ mem => ?_) fun a ha => .inl (table ▸ ha)
  · have none : l.filter (fun a => a.live && a.kind == .headerRead) = [] :=
      List.filter_eq_nil_iff.mpr fun a ha => by simp [kinds a ha]
    simp [State.headerReads, accesses, faulted, none]
  · simp only [State.knows, accesses, faulted, table, List.mem_append] at mem ⊢
    exact mem.imp_left fun mem => mem.resolve_right fun ha => kinds a ha header

/-- What leaves accesses, batches and faulted accesses. -/
theorem of_eq {s t : State} (accesses : t.bi.accesses = s.bi.accesses)
    (batches : t.cu.batches.length = s.cu.batches.length) (faulted : t.cu.faulted = s.cu.faulted)
    (table : t.rt.faulted = s.rt.faulted) : s.ChainStep t :=
  of_append (l := []) (by simpa using accesses) nofun batches faulted table

/-- What leaves the bus and the Chain Unit, and of the Request Table the faulted accesses. -/
theorem of_blocks {s t : State} (bi : t.bi = s.bi) (cu : t.cu = s.cu)
    (table : t.rt.faulted = s.rt.faulted) : s.ChainStep t :=
  of_eq (by rw [bi]) (by rw [cu]) (by rw [cu]) table

theorem issue (s : State) {kind : AccessKind} (h : kind ≠ .headerRead) (addr : Addr) (size : Nat)
    (data : List Byte) : s.ChainStep (s.issue kind addr size data) :=
  of_append (State.issue_accesses ..) (by simpa using h) rfl rfl rfl

theorem closeEvent (s : State) : s.ChainStep s.closeEvent := by
  obtain same | more := s.closeEvent_accesses
  · exact of_eq same (by simp) (by simp) (by simp)
  · exact of_append more (by simp) (by simp) (by simp) (by simp)

theorem endAccess (s : State) (tag : Nat) : s.ChainStep (s.endAccess tag) := by
  refine of_le le_rfl (s.headerReads_endAccess_le tag) (fun a _ _ mem => ?_) fun _ => .inl
  exact mem.imp_left List.mem_of_mem_filter

/-- The end of an access is a chain step if its issuer's act is one. -/
theorem onEnd {act : BusAccess → State → State} (h : ∀ a s, State.ChainStep s (act a s)) (s : State)
    (tag : Nat) (kind : AccessKind → Bool) : s.ChainStep (s.onEnd tag kind act) := by
  simp only [State.onEnd]
  repeat' split
  · exact (endAccess s tag).trans (h _ _)
  · exact endAccess s tag
  · exact refl s

theorem onEndTasks {act : BusAccess → State → State × List Task}
    (h : ∀ a s, State.ChainStep s (act a s).1) (s : State) (tag : Nat) (kind : AccessKind → Bool) :
    s.ChainStep (s.onEndTasks tag kind act).1 := by
  simp only [State.onEndTasks]
  repeat' split
  · exact (endAccess s tag).trans (h _ _)
  · exact endAccess s tag
  · exact refl s

/-! ### The end of STOPPING -/

theorem release (s : State) (a : Addr) : s.ChainStep (s.release a) := by
  simp only [State.release]
  split
  · exact (issue _ (by nofun) _ _ _).after (of_eq rfl rfl rfl rfl)
  · exact of_eq rfl rfl rfl rfl

theorem closeChain (s : State) : s.ChainStep s.closeChain := by
  have reads : ∀ {t : State}, t.bi = s.bi → t.cu.faulted = s.cu.faulted →
      t.headerReads ≤ s.headerReads := fun bi faulted =>
    (State.headerReads_of_eq (by rw [bi]) faulted).le
  simp only [State.closeChain, State.closeAfterAbandon, State.closeAfterStop]
  repeat' split
  case isTrue.isTrue => exact of_le (Nat.zero_le _) (reads rfl rfl) (fun _ _ _ => id) fun _ => .inl
  case isTrue.isFalse => exact refl s
  case isFalse.isFalse => exact refl s
  case isFalse.isTrue.isFalse => exact refl s
  all_goals first
    | exact release s _
    | exact refl s
    | exact of_eq rfl rfl rfl rfl

theorem settleStop (s : State) : s.ChainStep s.settleStop := by
  have report : s.ChainStep s.reportEmpty := of_blocks (by simp) (by simp) (by simp)
  have complete : ∀ t : State, t.ChainStep t.completeStop := fun _ =>
    of_blocks (by simp) (by simp) (by simp)
  exact (report.trans (closeChain _)).trans (complete _)

/-! ### The Chain Unit -/

theorem unpark (s : State) : s.ChainStep s.unpark := by
  refine of_eq ?_ ?_ ?_ ?_ <;> simp

theorem readLink (s : State) : s.ChainStep s.readLink := by
  simp only [State.readLink]
  repeat' split
  · exact (issue _ (by nofun) _ _ _).after (of_eq rfl rfl rfl rfl)
  all_goals exact of_eq rfl rfl rfl rfl

theorem refuseBatch (s : State) : s.ChainStep s.refuseBatch := by
  refine of_eq ?_ ?_ ?_ ?_ <;> simp [State.refuseBatch]

/-- The header read of phase HEADER, the one that may be new: it issues only while fewer than 8
batches are open (R97). -/
theorem readHeader (s : State) : s.ChainStep s.readHeader where
  law := State.batchLaw_readHeader
  fewer := by
    simp only [State.readHeader]
    repeat' split
    · exact (refuseBatch s).fewer
    all_goals exact le_rfl
  known a header live mem := by
    revert mem
    simp only [State.readHeader]
    split
    case isFalse => exact .inl
    case isTrue few =>
      repeat' split
      · exact (refuseBatch s).known a header live
      · exact fun _ => .inr (of_decide_eq_true (Bool.and_eq_true_iff.mp few).2)
      all_goals exact .inl

theorem issueRecordRead (s : State) (k : SlotId) : s.ChainStep (s.issueRecordRead k) := by
  have read := issue s (kind := .recordRead k) nofun
      (recordAddr (s.slot k).batch (s.slot k).index) 64 []
  have last : ∀ (t : State) a, t.ChainStep (t.afterLastRecord a) := by
    intro t a
    simp only [State.afterLastRecord]
    split
    · exact of_eq rfl rfl rfl rfl
    · exact (issue _ (by nofun) _ _ _).after (of_eq rfl rfl rfl rfl)
  simp only [State.issueRecordRead]
  repeat' split
  · exact read.trans (last _ _)
  all_goals exact read

theorem giveSlots (n : Nat) (s : State) : s.ChainStep (State.giveSlots n s) := by
  induction n generalizing s with
  | zero => exact refl s
  | succ n ih =>
    rw [State.giveSlots]
    split
    case h_2 => exact refl s
    case h_1 t given =>
      refine trans ?_ (ih t)
      simp only [State.giveOne] at given
      split at given
      · obtain ⟨b, -, given⟩ := Option.bind_eq_some_iff.mp given
        split at given
        · obtain ⟨k, -, rfl⟩ := Option.map_eq_some_iff.mp given
          refine of_eq ?_ ?_ ?_ ?_ <;> simp [State.giveSlot, State.updateBatch]
        · cases given
      · cases given

theorem readRecords (s : State) : s.ChainStep s.readRecords := by
  have issued : ∀ t : State, t.ChainStep t.issueGiven := by
    intro t
    simp only [State.issueGiven]
    split
    · exact (foldl issueRecordRead _ _).after (of_eq rfl rfl rfl rfl)
    · exact refl t
  exact (giveSlots 64 s).trans (issued _)

theorem followLink (s : State) (link : Addr) : s.ChainStep (s.followLink link) := by
  simp only [State.followLink, State.park]
  split
  · exact (readHeader _).after (of_eq rfl rfl rfl rfl)
  · split
    · exact (readLink _).after (of_eq rfl rfl rfl rfl)
    · split <;> exact of_eq (by simp) (by simp) (by simp) (by simp)

theorem beginRetirement (s : State) : s.ChainStep s.beginRetirement := by
  simp only [State.beginRetirement]
  repeat' split
  · exact (issue _ (by nofun) _ _ _).after (of_eq rfl rfl rfl rfl)
  all_goals exact refl s

/-- A retirement closes the oldest batch (R104). -/
theorem retire (s : State) : s.ChainStep s.retire := by
  have released : ∀ (t : State) b, t.ChainStep (t.releaseRetired b) := by
    intro t b
    simp only [State.releaseRetired]
    repeat' split
    · exact refl t
    · exact release t _
    · exact of_eq rfl rfl rfl rfl
  simp only [State.retire]
  split
  case h_2 => exact of_eq rfl rfl rfl rfl
  case h_1 b rest batches =>
    refine trans ?_ (released _ b)
    refine trans (of_le (t := { s with cu := { s.cu with
        retireSeq := s.cu.retireSeq + 1, batches := rest, retirementOutstanding := false } })
      (by simp [batches]) (State.headerReads_of_eq rfl rfl).le (fun _ _ _ => id) fun _ => .inl) ?_
    exact of_blocks (by simp) (by simp) (by simp)

theorem freeSlot (s : State) (k : SlotId) : s.ChainStep (s.freeSlot k) := of_eq rfl rfl rfl rfl

theorem endFetch (s : State) : s.ChainStep s.endFetch := of_eq rfl rfl rfl rfl

theorem takenWritten (s : State) : s.ChainStep s.takenWritten := by
  simp only [State.takenWritten]
  split
  · exact ((readRecords _).trans (settleStop _)).after (of_eq rfl rfl rfl rfl)
  · exact settleStop s

theorem linkArrived (s : State) (link : Addr) : s.ChainStep (s.linkArrived link) := by
  simp only [State.linkArrived]
  repeat' split
  · exact settleStop s
  · exact (endFetch s).trans (settleStop _)
  · exact followLink s link
  · exact refl s

theorem resultEnds (s : State) (kind : AccessKind) : s.ChainStep (s.resultEnds kind) := by
  cases kind with
  | resultWrite k =>
    simp only [State.resultEnds, State.resultWritten]
    split
    · exact (freeSlot s k).trans (settleStop _)
    · have counted : s.ChainStep ((s.freeSlot k).countAnswer (s.slot k)) :=
        of_eq rfl (by simp [State.countAnswer, State.updateBatch, State.freeSlot]) rfl rfl
      exact ((counted.trans (readRecords _)).trans (beginRetirement _)).trans (settleStop _)
  | _ => exact refl s

theorem retirementWritten (s : State) : s.ChainStep s.retirementWritten :=
  (((retire s).trans (readHeader _)).trans (beginRetirement _)).trans (settleStop _)

theorem forgetRelease (s : State) (a : Addr) : s.ChainStep (s.forgetRelease a) :=
  of_eq rfl rfl rfl rfl

theorem releaseEnds (s : State) (kind : AccessKind) : s.ChainStep (s.releaseEnds kind) := by
  cases kind with
  | releaseWrite a => exact (forgetRelease s a).trans (settleStop _)
  | _ => exact refl s

end State.ChainStep

theorem mem_insertByTag {a x : BusAccess} {l : List BusAccess} :
    x ∈ insertByTag a l ↔ x = a ∨ x ∈ l := by
  induction l with
  | nil => simp [insertByTag]
  | cons b l ih =>
    simp only [insertByTag]
    split
    · simp
    · simp only [List.mem_cons, ih]
      tauto

/-- The accesses remembered are those remembered before and the new one. -/
theorem countP_insertByTag (p : BusAccess → Bool) (a : BusAccess) (l : List BusAccess) :
    (insertByTag a l).countP p = l.countP p + if p a then 1 else 0 := by
  induction l with
  | nil => simp [insertByTag, List.countP_cons]
  | cons b l ih =>
    simp only [insertByTag]
    split
    · simp only [List.countP_cons]
    · simp only [List.countP_cons, ih]
      omega

/-- The access that an event ends was outstanding, of the event's kind. -/
theorem State.endedAccess_eq_some {s : State} {tag : Nat} {kind : AccessKind → Bool} {a : BusAccess}
    (h : s.endedAccess tag kind = some a) : s.accessOf tag = some a ∧ kind a.kind = true :=
  Option.filter_eq_some_iff.mp h

namespace State.ChainStep

/-- A faulted access of the Chain Unit moves from the bus to the accesses remembered (R106). -/
theorem rememberFault {s : State} {tag : Nat} {a : BusAccess} (h : s.awaits tag a) :
    s.ChainStep ((s.endAccess tag).rememberFault a) := by
  have report : ∀ t : State, t.ChainStep t.reportHostFault := fun t =>
    of_blocks (by simp) (by simp) (by simp)
  refine trans ?_ (report _)
  refine of_le le_rfl ?_ (fun x _ _ mem => ?_) fun _ => .inl
  · simp only [State.headerReads, State.endAccess, ← List.countP_eq_length_filter,
      countP_insertByTag]
    by_cases header : a.kind = .headerRead
    · have := State.headerReads_endAccess_lt h header
      simp only [State.headerReads, State.endAccess, ← List.countP_eq_length_filter] at this
      simp only [header, beq_self_eq_true, if_true]
      omega
    · have := State.headerReads_endAccess_le s tag
      simp only [State.headerReads, State.endAccess, ← List.countP_eq_length_filter] at this
      simp only [beq_eq_false_iff_ne.mpr header, Bool.false_eq_true, if_false]
      omega
  · obtain mem | mem | mem := mem
    · exact .inl (List.mem_of_mem_filter mem)
    · obtain rfl | mem := mem_insertByTag.mp mem
      · exact .inl (List.mem_of_find?_eq_some h.1)
      · exact .inr (.inl mem)
    · exact .inr (.inr mem)

theorem chainFault {s : State} {tag : Nat} {a : BusAccess} (h : s.awaits tag a) :
    s.ChainStep ((s.endAccess tag).chainFault a) := by
  have abandoned : ∀ (t : State) kind, t.ChainStep (t.faultAbandoned kind) := by
    intro t kind
    simp only [State.faultAbandoned]
    split
    · exact (freeSlot t _).trans (settleStop _)
    · exact (freeSlot t _).trans (settleStop _)
    · exact (settleStop _).after (of_eq rfl rfl rfl rfl)
    · exact (forgetRelease t _).trans (settleStop _)
    · exact settleStop t
  simp only [State.chainFault]
  repeat' split
  · exact (endAccess s tag).trans (abandoned _ _)
  · exact ((endAccess s tag).trans (endFetch _)).trans (settleStop _)
  · exact rememberFault h

/-- A buffer access that the Request Table remembers is no header read (R89). -/
theorem bufferFault (s : State) {a : BusAccess} (h : a.kind.ofBuffer = true) :
    s.ChainStep (s.bufferFault a) := by
  have other : a.kind ≠ .headerRead := by
    intro header
    rw [header] at h
    cases h
  have report : ∀ t : State, t.ChainStep t.reportHostFault := fun t =>
    of_blocks (by simp) (by simp) (by simp)
  simp only [State.bufferFault]
  split
  · refine trans ?_ (settleStop _)
    cases a.kind.bufferSlot with
    | none => exact refl s
    | some k => exact freeSlot s k
  · refine trans (trans (t := s.markTransfer a .faulted) ?_ ?_) (report _)
    · simp only [State.markTransfer]
      split <;> exact of_eq rfl rfl rfl rfl
    · refine of_le le_rfl (State.headerReads_of_eq rfl rfl).le (fun x header _ mem => ?_)
        fun x mem => ?_
      · obtain mem | mem | mem := mem
        · exact .inl mem
        · exact .inr (.inl mem)
        · obtain rfl | mem := mem_insertByTag.mp mem
          · exact absurd header other
          · exact .inr (.inr mem)
      · obtain rfl | mem := mem_insertByTag.mp mem
        · exact .inr other
        · exact .inl mem

/-! ### Status writes -/

theorem onStatusEnd {act : State → State} (h : ∀ s, State.ChainStep s (act s)) (s : State)
    (tag : Nat) : s.ChainStep (s.onStatusEnd tag act) := by
  simp only [State.onStatusEnd]
  repeat' split
  · exact (endAccess s tag).trans (h _)
  · exact (endAccess s tag).trans (of_eq rfl rfl rfl rfl)
  · exact refl s

theorem statusFaulted (s : State) : s.ChainStep s.statusFaulted := by
  refine of_blocks ?_ ?_ ?_ <;>
  · simp only [State.statusFaulted, State.oweLater]
    repeat' split
    all_goals simp

/-! ### Commands -/

theorem illegal (s : State) (code : Byte) : s.ChainStep (s.illegal code) :=
  of_blocks (by simp) (by simp) (by simp)

theorem start (s : State) : s.ChainStep s.start := by
  simp only [State.start, State.readTableProfile]
  repeat' split
  · exact (issue _ (by nofun) _ _ _).after (of_eq rfl rfl rfl rfl)
  · exact of_blocks (by simp) (by simp) (by simp)
  · exact illegal s 2

/-- A STOP or ABANDON in CLEARING reads no header: the ending is set (R155, R161). -/
theorem stopSweep (s : State) {ending : Ending} (h : ending ≠ .none) :
    s.ChainStep (s.stopSweep ending) := by
  simp only [State.stopSweep, State.checkSweepEnd, State.endSweep, beq_eq_false_iff_ne.mpr h]
  repeat' split
  all_goals first
    | contradiction
    | exact of_blocks (by simp) (by simp) (by simp)

theorem stop (s : State) : s.ChainStep s.stop := by
  simp only [State.stop]
  split
  · refine trans ?_ (settleStop _)
    have entered : s.ChainStep (s.enterStopping .stop) := by
      simp only [State.enterStopping]
      split <;> exact of_blocks (by simp) (by simp) (by simp)
    have chain : ∀ t : State, t.ChainStep t.stopChain := by
      intro t
      simp only [State.stopChain]
      repeat' split
      all_goals first
        | exact refl t
        | exact of_eq rfl rfl rfl rfl
        | exact (unpark t).trans (of_eq rfl rfl rfl rfl)
    exact entered.trans (chain _)
  · exact stopSweep s nofun
  · exact illegal s 3

theorem abandonTable (s : State) : s.ChainStep s.abandonTable := by
  have slot : ∀ (t : State) k, t.ChainStep (t.abandonSlot k) := by
    intro t k
    simp only [State.abandonSlot]
    repeat' split
    all_goals first
      | exact refl t
      | exact freeSlot t k
      | exact of_eq rfl rfl rfl rfl
  have cleared : ∀ t : State, t.ChainStep { t with rt := { t.rt with
      hold := none, faulted := [], unreported := [] } } := by
    intro t
    refine of_le le_rfl (State.headerReads_of_eq rfl rfl).le (fun a _ _ mem => ?_) nofun
    exact mem.imp_right fun mem => mem.elim .inl nofun
  exact (foldl slot allSlots s).trans (cleared _)

theorem abandonChain (s : State) : s.ChainStep s.abandonChain := by
  refine (unpark s).trans ?_
  refine of_le le_rfl ?_ (fun a _ _ mem => ?_) fun _ => .inl
  · simp [State.abandonChain, State.headerReads]
  · exact mem.imp_right fun mem => mem.elim nofun .inr

theorem abandon (s : State) : s.ChainStep s.abandon := by
  have entered : s.ChainStep s.enterAbandon := by
    simp only [State.enterAbandon, State.enterStopping]
    split <;> exact of_blocks (by simp) (by simp) (by simp)
  have drained := ((entered.trans (abandonChain _)).trans (abandonTable _)).trans (settleStop _)
  simp only [State.abandon]
  repeat' split
  · exact stopSweep s nofun
  · exact drained
  · exact drained
  · exact refl s
  · exact drained
  · exact illegal s 5

theorem nudge (s : State) : s.ChainStep s.nudge := by
  simp only [State.nudge]
  repeat' split
  · exact (unpark s).trans (readLink _)
  all_goals first | exact refl s | exact of_eq rfl rfl rfl rfl

end State.ChainStep

/-- Accesses issued again stand on the bus behind those outstanding (R108). -/
theorem State.foldl_reissue (l : List BusAccess) (s : State) :
    l.foldl State.reissue s = { s with bi := { s.bi with accesses := s.bi.accesses ++ l } } := by
  induction l generalizing s with
  | nil => simp
  | cons a l ih =>
    rw [List.foldl_cons, ih]
    simp [State.reissue]

/-- The Request Table's faulted accesses issued again leave all else that the batches' law reads
(R89). -/
theorem State.foldl_reissueTransfer (l : List BusAccess) (s : State) :
    (l.foldl (fun t a => (t.markTransfer a .outstanding).reissue a) s).bi.accesses
        = s.bi.accesses ++ l
      ∧ (l.foldl (fun t a => (t.markTransfer a .outstanding).reissue a) s).cu = s.cu
      ∧ (l.foldl (fun t a => (t.markTransfer a .outstanding).reissue a) s).rt.faulted
        = s.rt.faulted := by
  induction l generalizing s with
  | nil => simp
  | cons a l ih =>
    obtain ⟨accesses, cu, faulted⟩ := ih ((s.markTransfer a .outstanding).reissue a)
    have same : (s.markTransfer a .outstanding).bi = s.bi
        ∧ (s.markTransfer a .outstanding).cu = s.cu
        ∧ (s.markTransfer a .outstanding).rt.faulted = s.rt.faulted := by
      simp only [State.markTransfer]
      split <;> exact ⟨rfl, rfl, rfl⟩
    rw [List.foldl_cons]
    exact ⟨by simp [accesses, same.1], by simp [cu, same.2.1], by simp [faulted, same.2.2]⟩

namespace State.ChainStep

/-- The Chain Unit's faulted accesses go back on the bus: the header reads known are the same
(R108). -/
theorem reissueFaulted (s : State) :
    s.ChainStep (s.cu.faulted.foldl State.reissue { s with cu := { s.cu with faulted := [] }
      }) := by
  rw [State.foldl_reissue]
  refine of_le le_rfl ?_ (fun a _ _ mem => ?_) fun _ => .inl
  · simp only [State.headerReads, ← List.countP_eq_length_filter, List.countP_append,
      List.countP_nil, Nat.add_zero]
    refine Nat.add_le_add_left (List.countP_mono_left fun a _ h => ?_) _
    exact (Bool.and_eq_true_iff.mp h).2
  · simp only [State.knows, List.mem_append] at mem ⊢
    tauto

theorem resumeChain (s : State) : s.ChainStep s.resumeChain := by
  have bad : ∀ t : State, t.ChainStep t.resumeBadBatch := by
    intro t
    simp only [State.resumeBadBatch]
    repeat' split
    · exact (readLink _).after (of_eq rfl rfl rfl rfl)
    · exact of_eq rfl rfl rfl rfl
    · exact refl t
  have parked : ∀ t : State, t.ChainStep t.resumeParked := by
    intro t
    simp only [State.resumeParked]
    split
    · exact ((unpark _).trans (readLink _)).after (of_eq rfl rfl rfl rfl)
    · exact refl t
  have waiting : ∀ t : State, t.ChainStep t.resumeWaiting := by
    intro t
    simp only [State.resumeWaiting, State.writeTaken]
    repeat' split
    · exact issue t (by nofun) _ _ _
    · exact refl t
    · exact refl t
    · exact readLink t
    · exact refl t
  have result : ∀ (t : State) k, t.ChainStep (t.issueResult k) := fun t k =>
    (issue _ (by nofun) _ _ _).after (of_eq rfl rfl rfl rfl)
  have results : ∀ t : State, t.ChainStep t.resumeResults := by
    intro t
    simp only [State.resumeResults]
    split
    · exact (foldl result _ _).after (of_eq rfl rfl rfl rfl)
    · exact refl t
  have releases : ∀ t : State, t.ChainStep t.resumeReleases := by
    intro t
    simp only [State.resumeReleases]
    split
    · exact (foldl release _ _).after (of_eq rfl rfl rfl rfl)
    · exact refl t
  exact ((((((((reissueFaulted s).trans (bad _)).trans (parked _)).trans (waiting _)).trans
    (readRecords _)).trans (results _)).trans (readHeader _)).trans (beginRetirement _)).trans
    (releases _)

theorem issueTransfer (s : State) (k : SlotId) : s.ChainStep (s.issueTransfer k) := by
  simp only [State.issueTransfer]
  repeat' split
  · exact (issue _ (by nofun) _ _ _).after (of_eq rfl rfl rfl rfl)
  · exact (issue _ (by nofun) _ _ _).after (of_eq rfl rfl rfl rfl)
  · exact refl s

theorem resumeTable (s : State) : s.ChainStep s.resumeTable := by
  refine trans ?_ (foldl issueTransfer s.rt.age _)
  obtain ⟨accesses, cu, faulted⟩ :=
    State.foldl_reissueTransfer s.rt.faulted { s with rt := { s.rt with faulted := [] } }
  refine ⟨fun law => ?_, (by rw [cu]), fun a _ _ mem => ?_⟩
  · refine State.batchLaw_of_le law (by rw [cu]) ?_ (by rw [faulted]; exact nofun)
    have none : s.rt.faulted.filter (fun a => a.live && a.kind == .headerRead) = [] :=
      List.filter_eq_nil_iff.mpr fun a ha => by simp [law.2.2.2 a ha]
    simp [State.headerReads, accesses, cu, none]
  · simp only [State.knows, accesses, cu, faulted, List.mem_append] at mem ⊢
    have := List.not_mem_nil (a := a)
    tauto

theorem resume (s : State) : s.ChainStep s.resume := by
  simp only [State.resume]
  split
  · have left : s.ChainStep s.leaveStall := by
      refine of_blocks ?_ ?_ ?_ <;> simp only [State.leaveStall] <;> simp
    exact ((left.trans (resumeChain _)).trans (resumeTable _)).trans (settleStop _)
  · exact illegal s 4

end State.ChainStep
end Sys2Proof.Machine
end

section
/-! The open batches and the header reads under every other event; the counts that every step keeps.
-/

namespace Sys2Proof.Machine
namespace State.ChainStep

/-! ### The table's consequences -/

theorem enterRunning (s : State) : s.ChainStep s.enterRunning := by
  refine trans ?_ (readHeader _)
  exact of_eq (by simp) (by simp) (by simp) (by simp)

theorem raise (s : State) (cause : BitVec 5) : s.ChainStep (s.raise cause) :=
  of_blocks (by simp) (by simp) (by simp)

theorem endSweep (s : State) : s.ChainStep s.endSweep := by
  simp only [State.endSweep]
  split
  · exact ((enterRunning _).trans (raise _ _)).after (of_blocks rfl rfl rfl)
  · exact of_blocks (by simp) (by simp) (by simp)

theorem sweepWriteEnded (s : State) : s.ChainStep s.sweepWriteEnded := by
  simp only [State.sweepWriteEnded, State.checkSweepEnd]
  split
  · exact (endSweep _).after (of_blocks rfl rfl rfl)
  · exact of_blocks rfl rfl rfl

theorem checkDiscard (s : State) : s.ChainStep s.checkDiscard := by
  simp only [State.checkDiscard]
  repeat' split
  · exact of_blocks (by simp) (by simp) (by simp)
  · exact endSweep s
  · exact refl s

theorem setSlot (s : State) (k : SlotId) (x : Slot) : s.ChainStep (s.setSlot k x) :=
  of_eq rfl rfl rfl rfl

theorem setLine (s : State) (i : SetId) (w : Way) (l : Line) : s.ChainStep (s.setLine i w l) :=
  of_eq rfl rfl rfl rfl

theorem putSet (s : State) (i : SetId) (c : CacheSet) : s.ChainStep (s.putSet i c) :=
  of_eq rfl rfl rfl rfl

theorem startStore (s : State) (k : SlotId) : s.ChainStep (s.startStore k) := by
  simp only [State.startStore]
  repeat' split
  · exact (freeSlot s k).trans (settleStop _)
  · exact (issue _ (by nofun) _ _ _).after (setSlot s k _)
  · exact setSlot s k _

theorem modifyThrough (s : State) (i : SetId) (w : Way) (k : SlotId) (im : Image) :
    s.ChainStep (s.modifyThrough i w k im) :=
  of_blocks (by simp) (by simp) (by simp)

theorem applyStep (s : State) (i : SetId) (w : Way) (k : SlotId) (kind : Kind) (out : StepResult) :
    s.ChainStep (s.applyStep i w k kind out).1 := by
  simp only [State.applyStep]
  repeat' split
  · exact setLine s i w _
  · exact refl s
  · exact startStore s k
  · exact refl s
  · exact (modifyThrough s i w k _).trans (setSlot _ k _)
  · exact setLine s i w _

theorem stepOn (s : State) (i : SetId) (w : Way) (k : SlotId) : s.ChainStep (s.stepOn i w k).1 := by
  simp only [State.stepOn]
  split
  · refine ((trans ?_ (setSlot _ k _)).trans (putSet _ i _)).trans (applyStep _ i w k _ _)
    split
    · exact of_blocks (by simp) (by simp) (by simp)
    · exact refl s
  · exact refl s

theorem allocate (s : State) (i : SetId) (w : Way) (k : SlotId) :
    s.ChainStep (s.allocate i w k).1 := by
  simp only [State.allocate, State.allocateWhole]
  split
  · refine trans ?_ (stepOn _ i w k)
    exact of_blocks (by simp) (by simp) (by simp)
  · exact of_blocks (by simp) (by simp) (by simp)

theorem takeLine_getD {s t : State} {tasks : List Task} (h : s.ChainStep t) (k : SlotId) :
    s.ChainStep ((s.takeLine k).getD (t, tasks)).1 := by
  simp only [State.takeLine]
  split
  · exact allocate s _ _ k
  · exact of_blocks (by simp) (by simp) (by simp)
  · exact h

theorem takeLine {s : State} {k : SlotId} {p : State × List Task} (h : s.takeLine k = some p) :
    s.ChainStep p.1 := by
  simpa [h] using takeLine_getD (tasks := []) (refl s) k

theorem hit (s : State) (i : SetId) (w : Way) (k : SlotId) : s.ChainStep (s.hit i w k).1 := by
  simp only [State.hit]
  split <;> exact setLine s i w _

theorem obtainLine (s : State) (k : SlotId) : s.ChainStep (s.obtainLine k).1 := by
  simp only [State.obtainLine]
  split
  · exact putSet s _ _
  · exact takeLine_getD (putSet s _ _) k

theorem writeFailed (s : State) (i : SetId) (w : Way) : s.ChainStep (s.writeFailed i w).1 := by
  simp only [State.writeFailed]
  repeat' split
  · exact (setLine s i w _).trans (checkDiscard _)
  · exact of_blocks (by simp) (by simp) (by simp)
  · exact refl s

theorem writeCompleted (s : State) (i : SetId) (w : Way) :
    s.ChainStep (s.writeCompleted i w).1 := by
  simp only [State.writeCompleted]
  repeat' split
  · exact (setLine s i w _).trans (checkDiscard _)
  · exact (setLine s i w _).trans (allocate _ i w _)
  · exact setLine s i w _
  · exact refl s
  · exact refl s

theorem lookAtNext (s : State) (i : SetId) (w : Way) : s.ChainStep (s.lookAtNext i w).1 := by
  simp only [State.lookAtNext]
  repeat' split
  all_goals exact of_blocks (by simp) (by simp) (by simp)

theorem fillFailed (s : State) (i : SetId) (w : Way) : s.ChainStep (s.fillFailed i w).1 := by
  simp only [State.fillFailed]
  split <;> exact of_blocks (by simp) (by simp) (by simp)

theorem fillCompleted (s : State) (i : SetId) (w : Way) (im : Image) :
    s.ChainStep (s.fillCompleted i w im).1 := by
  simp only [State.fillCompleted]
  split
  · exact setLine s i w _
  · exact refl s

theorem executeHead (s : State) (i : SetId) (w : Way) : s.ChainStep (s.executeHead i w).1 := by
  simp only [State.executeHead]
  split
  · exact refl s
  · split
    · exact (stepOn s i w _).trans (setLine _ i w _)
    · exact refl s

theorem startFlush (s : State) (k : SlotId) : s.ChainStep (s.startFlush k) := by
  have line : ∀ (t : State) (p : SetId × Way), t.ChainStep (t.flushLine p.1 p.2) := by
    intro t p
    simp only [State.flushLine]
    split
    · exact of_blocks (by simp) (by simp) (by simp)
    · exact refl t
  unfold State.startFlush
  exact (foldl line _ _).after (of_blocks rfl rfl rfl)

theorem finishSlot (s : State) (k : SlotId) (r : Result) : s.ChainStep (s.finishSlot k r) := by
  simp only [State.finishSlot, State.reportResult]
  repeat' split
  · exact (freeSlot s k).trans (settleStop _)
  · exact (issue _ (by nofun) _ _ _).after ((setSlot s k _).trans (setSlot _ k _))
  · exact of_eq rfl rfl rfl rfl

theorem takeHold (s : State) (k : SlotId) (r : Request) : s.ChainStep (s.takeHold k r) := by
  simp only [State.takeHold, State.startLoad]
  repeat' split
  · exact (issue _ (by nofun) _ _ _).after (of_eq rfl rfl rfl rfl)
  all_goals exact of_eq rfl rfl rfl rfl

theorem treat (s : State) (k : SlotId) (d : Block64) : s.ChainStep (s.treat k d).1 := by
  simp only [State.treat, State.letIn]
  repeat' split
  case h_1.isFalse => exact (setSlot s k _).trans (takeHold _ k _)
  all_goals exact of_eq rfl rfl rfl rfl

end State.ChainStep

/-- Every consequence is a chain step. -/
theorem runTask_chainStep (t : Task) (s : State) : s.ChainStep (runTask t s).1 := by
  open State.ChainStep in
  cases t with
  | arrive k =>
    simp only [runTask, State.arriveVisit, State.arriveRawWrite, State.arriveRepair,
      State.arriveOrdinary]
    repeat' split
    all_goals first | exact refl s | exact hit s _ _ k | exact obtainLine s k
  | refuse k =>
    simp only [runTask, State.refuseVisit]
    repeat' split
    all_goals first | exact refl s | exact setSlot s k _
  | finish k r =>
    simp only [runTask, State.finishRequest]
    split
    · refine (finishSlot s k r).trans ?_
      exact of_eq rfl rfl rfl rfl
    · exact finishSlot s k r
  | dispatch k =>
    simp only [runTask, State.dispatchRequest]
    repeat' split
    · exact refl s
    · dsimp only
      exact (startFlush (s.setVisiting k _) k).after (setSlot s k _)
    · exact setSlot s k _
    · exact refl s
  | consider =>
    simp only [runTask, State.considerNext]
    repeat' split
    · exact (setSlot s _ _).trans (treat _ _ _)
    all_goals exact refl s
  | owner =>
    simp only [runTask, State.checkOwner]
    repeat' split
    all_goals exact refl s
  | retry i =>
    simp only [runTask, State.retrySet]
    split
    · exact refl s
    · repeat' split
      case h_1 taken => exact (takeLine taken).after (putSet s i _)
      all_goals first | exact refl s | exact putSet s i _
  | rechoose k => exact takeLine_getD (putSet s _ _) k
  | flushCheck =>
    simp only [runTask, State.checkFlush]
    repeat' split
    all_goals exact of_blocks rfl rfl rfl
  | lineLost i w => exact writeFailed s i w
  | leaveList i w k => exact setLine s i w _
  | lookNext i w => exact lookAtNext s i w

/-- A settled event is a chain step if its own act is one. -/
theorem settle_chainStep {s u : State} {p : State × List Task} (h : s.ChainStep p.1)
    (settled : settle p = some u) : s.ChainStep u :=
  settle_induction (P := s.ChainStep) (fun t _ hv => hv.trans (runTask_chainStep t _))
    (fun _ hv => hv.trans (.closeEvent _)) h settled

namespace State.ChainStep

/-! ### The devices' reports -/

/-- An event of the devices' side leaves the Chain Unit, the Request Table and the bus alone. -/
theorem resumeAccepting (s : State) : s.ChainStep s.resumeAccepting :=
  of_blocks (by simp) (by simp) (by simp)

theorem leaveQueue (s : State) (b : BankId) (age : Nat) : s.ChainStep (s.leaveQueue b age) :=
  of_blocks (by simp) (by simp) (by simp)

theorem failBringup (s : State) (cause : FailureCause) : s.ChainStep (s.failBringup cause) :=
  of_blocks (by simp) (by simp) (by simp)

theorem probeRead (s : State) (im : Image) : s.ChainStep (s.probeRead im) := by
  simp only [State.probeRead, State.judgeProbe]
  repeat' split
  all_goals exact of_blocks (by simp) (by simp) (by simp)

theorem probeWritten (s : State) : s.ChainStep s.probeWritten := by
  simp only [State.probeWritten]
  split <;> exact of_blocks (by simp) (by simp) (by simp)

theorem poisonBucket (s : State) (b : Bucket) (reason : PoisonReason) :
    s.ChainStep (s.poisonBucket b reason) :=
  of_blocks (by simp) (by simp) (by simp)

theorem readArrived (s : State) (b : BankId) (a : Access) (im : Image) :
    s.ChainStep (s.readArrived b a im).1 := by
  have left := leaveQueue s b a.age
  simp only [State.readArrived]
  split
  · exact left
  split
  · cases a.body.requester with
    | line i w => exact left.trans (fillCompleted _ i w im)
    | sweep => exact left
    | bringup => exact left.trans (probeRead _ im)
  split
  · simp only [State.retryRead]
    split <;> exact of_blocks (by simp) (by simp) (by simp)
  · cases a.body.requester with
    | line i w => exact left.trans (fillFailed _ i w)
    | sweep => exact left
    | bringup => exact left.trans (failBringup _ _)

theorem patternArrived (s : State) (i : Nat) (d : Block128) :
    s.ChainStep (s.patternArrived i d) := by
  simp only [State.patternArrived]
  repeat' split
  all_goals exact of_blocks (by simp) (by simp) (by simp)

theorem dataArrived (s : State) (d : Block128) : s.ChainStep (s.dataArrived d).1 := by
  have popped : ∀ rest, s.ChainStep { s with mc := { s.mc with reads := rest } } :=
    fun _ => of_blocks rfl rfl rfl
  simp only [State.dataArrived]
  split
  · exact refl s
  · split
    · exact popped _
    · exact (popped _).trans (patternArrived _ _ _)
  · split
    · exact (popped _).trans (readArrived _ _ _ _)
    · exact popped _

theorem retryWrites (s : State) (l : List (BankId × Access)) : s.ChainStep (s.retryWrites l) := by
  induction l with
  | nil => exact refl s
  | cons x l ih =>
    have retried : ∀ (t : State) b a, t.ChainStep (t.retryWrite b a) := by
      intro t b a
      simp only [State.retryWrite]
      split <;> exact of_blocks (by simp) (by simp) (by simp)
    exact ih.trans (retried _ x.1 x.2)

theorem endAlerted (p : State × List Task) (x : BankId × Access) :
    p.1.ChainStep (State.endAlerted p x).1 := by
  have left := leaveQueue p.1 x.1 x.2.age
  simp only [State.endAlerted, State.writeLost]
  repeat' split
  · exact left
  · exact left
  · exact left.trans (failBringup _ _)
  · exact (left.trans (poisonBucket _ _ _)).trans (sweepWriteEnded _)
  · exact left.trans (sweepWriteEnded _)

theorem alerted (s : State) : s.ChainStep s.alerted.1 := by
  have ended : ∀ (l : List (BankId × Access)) (p : State × List Task),
      p.1.ChainStep (l.foldl State.endAlerted p).1 := by
    intro l
    induction l with
    | nil => exact fun p => refl p.1
    | cons x l ih => exact fun p => (endAlerted p x).trans (ih _)
  exact (ended _ (s.retryWrites _, [])).after (retryWrites s _)

theorem windowClosed (s : State) (age : Nat) : s.ChainStep (s.windowClosed age).1 := by
  simp only [State.windowClosed]
  split
  case h_2 => exact refl s
  case h_1 b a _ =>
    have left := leaveQueue s b age
    split
    · exact left
    · cases a.body.requester with
      | line i w => exact left.trans (writeCompleted _ i w)
      | sweep => exact left.trans (sweepWriteEnded _)
      | bringup => exact left.trans (probeWritten _)

/-! ### Profiles, resets, register writes -/

theorem statusWritten (s : State) : s.ChainStep s.statusWritten := of_blocks rfl rfl rfl

theorem bringup (s : State) : s.ChainStep s.bringup := by
  have probing : s.ChainStep s.enterProbing := of_blocks (by simp [State.enterProbing])
    (by simp [State.enterProbing]) (by simp [State.enterProbing])
  have read : ∀ t : State, t.ChainStep t.readMemoryProfile := by
    intro t
    simp only [State.readMemoryProfile]
    split
    · exact (issue _ (by nofun) _ _ _).after (of_blocks rfl rfl rfl)
    · exact failBringup t _
  simp only [State.bringup]
  split
  · exact probing.trans (read _)
  · exact illegal s 1

theorem memoryProfileArrived (s : State) (d : Block64) :
    s.ChainStep (s.memoryProfileArrived d) := by
  simp only [State.memoryProfileArrived]
  split
  · exact of_blocks rfl rfl rfl
  · exact failBringup s _

/-- An accepted START opens no batch: it empties the list (R96). -/
theorem takeProfile (s : State) (p : TableProfile) : s.ChainStep (s.takeProfile p) := by
  refine of_le (Nat.zero_le _) ?_ (fun a _ _ mem => mem.imp_right fun mem => mem.elim nofun .inr)
    fun _ => .inl
  simp [State.headerReads, State.takeProfile, ChainUnit.reset]

theorem tableProfileArrived (s : State) (d : Block64) : s.ChainStep (s.tableProfileArrived d) := by
  have clearing : ∀ t : State, t.ChainStep t.beginClearing := fun t =>
    (checkDiscard _).after (of_blocks (by simp) (by simp) (by simp))
  have judged : ∀ (t : State) p, t.ChainStep (t.judgeProfile p) := by
    intro t p
    simp only [State.judgeProfile]
    repeat' split
    · exact of_blocks (by simp) (by simp) (by simp)
    · exact (takeProfile t p).trans (clearing _)
    · exact (takeProfile t p).trans (enterRunning _)
    · exact of_blocks (by simp) (by simp) (by simp)
  exact (judged _ _).after (of_blocks rfl rfl rfl)

/-- After an engine reset nothing is open, and no header read is live (R111). -/
theorem engineReset (s : State) : s.ChainStep s.engineReset := by
  refine trans ?_ (resumeAccepting _)
  have dead : ∀ a ∈ s.bi.accesses.map (fun a => { a with live := false }), a.live ≠ true := by
    intro a mem
    obtain ⟨b, -, rfl⟩ := List.mem_map.mp mem
    exact Bool.false_ne_true
  refine of_le (Nat.zero_le _) ?_ (fun a _ live mem => ?_) nofun
  · have none : (s.bi.accesses.map fun a => { a with live := false }).filter
        (fun a => a.live && a.kind == .headerRead) = [] :=
      List.filter_eq_nil_iff.mpr fun a ha h => dead a ha (Bool.and_eq_true_iff.mp h).1
    simp [State.headerReads, none, ChainUnit.reset]
  · obtain mem | mem | mem := mem
    · exact absurd live (dead a mem)
    · cases mem
    · cases mem

theorem powerOn (s : State) : s.ChainStep s.powerOn :=
  of_le (Nat.zero_le _) (Nat.zero_le _) (fun _ _ _ mem => by
    obtain mem | mem | mem := mem <;> cases mem) nofun

theorem commandArrival (s : State) (v : Word) : s.ChainStep (s.commandArrival v) := by
  simp only [State.commandArrival]
  split
  · exact bringup s
  · exact start s
  · exact stop s
  · exact resume s
  · exact abandon s
  · exact engineReset s
  · exact illegal s _

theorem writeRegister (s : State) (offset : Nat) (v : Word) (enables : BitVec 4) :
    s.ChainStep (s.writeRegister offset v enables) := by
  simp only [State.writeRegister, State.writeCause, State.writeMask]
  split
  case h_1 =>
    split
    · exact commandArrival s v
    · exact refl s
  case h_2 =>
    split
    · exact refl s
    · exact nudge s
  case h_7 => exact refl s
  all_goals split <;> exact of_eq rfl rfl rfl rfl

theorem recordEnds (s : State) (kind : AccessKind) (d : Block64) :
    s.ChainStep (s.recordEnds kind d).1 := by
  simp only [State.recordEnds, State.recordArrived]
  split
  · split
    · exact (freeSlot s _).trans (settleStop _)
    · exact setSlot s _ _
  · exact refl s

theorem loadEnds (s : State) (kind : AccessKind) (d : Block128) :
    s.ChainStep (s.loadEnds kind d).1 := by
  simp only [State.loadEnds, State.bufferLoaded]
  split
  · split
    · exact (freeSlot s _).trans (settleStop _)
    · exact setSlot s _ _
  · exact refl s

theorem storeEnds (s : State) (kind : AccessKind) : s.ChainStep (s.storeEnds kind).1 := by
  simp only [State.storeEnds]
  split <;> exact refl s

/-- The end of an access by a fault, where the act reads what the ended access was. -/
theorem onEnd_of_awaits {act : BusAccess → State → State} {s : State} {tag : Nat}
    {kind : AccessKind → Bool}
    (h : ∀ a, s.awaits tag a → kind a.kind = true → s.ChainStep (act a (s.endAccess tag))) :
    s.ChainStep (s.onEnd tag kind act) := by
  simp only [State.onEnd]
  split
  case h_2 => exact refl s
  case h_1 a ended =>
    obtain ⟨outstanding, kind⟩ := State.endedAccess_eq_some ended
    split
    case isTrue live => exact h a ⟨outstanding, live⟩ kind
    case isFalse => exact endAccess s tag

end State.ChainStep

/-- Every command but a header arrival is a chain step. -/
theorem exec_chainStep {c : Instr} {s t : State} (h : exec c s = .next t)
    (other : ∀ tag d, c ≠ .headerArrival tag d) : s.ChainStep t := by
  open State.ChainStep in
  have settled : ∀ {p : State × List Task}, outcomeOf (settle p) = .next t → s.ChainStep p.1 →
      s.ChainStep t := fun h hp => settle_chainStep hp (outcomeOf_eq_next h)
  have closed : ∀ {u : State}, s.ChainStep u → s.ChainStep u.closeEvent :=
    fun h => h.trans (closeEvent _)
  cases c with
  | headerArrival tag d => exact absurd rfl (other tag d)
  | recordArrival tag d => exact settled h (onEndTasks (fun _ _ => recordEnds _ _ _) _ _ _)
  | loadCompletion tag d => exact settled h (onEndTasks (fun _ _ => loadEnds _ _ _) _ _ _)
  | storeCompletion tag => exact settled h (onEndTasks (fun _ _ => storeEnds _ _) _ _ _)
  | readDataArrival d => exact settled h ((dataArrived s d).trans (resumeAccepting _))
  | writeAlert => exact settled h ((alerted s).trans (resumeAccepting _))
  | alertWaitExpiry age => exact settled h ((windowClosed s age).trans (resumeAccepting _))
  | stepExecution i w => exact settled h (executeHead s i w)
  | powerOnReset => cases h; exact powerOn s
  | bringup => cases h; exact closed (bringup s)
  | start => cases h; exact closed (start s)
  | stop => cases h; exact closed (stop s)
  | resume => cases h; exact closed (resume s)
  | abandon => cases h; exact closed (abandon s)
  | reset => cases h; exact closed (engineReset s)
  | illegalCommand value => cases h; exact closed (commandArrival s value)
  | nudge value => cases h; exact closed (nudge s)
  | intcauseWrite v e | intmaskWrite v e =>
    cases h
    simp only [State.writeCause, State.writeMask]
    split <;> exact of_eq rfl rfl rfl rfl
  | registerWrite o v e => cases h; exact closed (writeRegister s o v e)
  | memoryProfileArrival tag d =>
    cases h; exact closed (onEnd (fun _ _ => memoryProfileArrived _ _) _ _ _)
  | memoryProfileFault tag => cases h; exact closed (onEnd (fun _ _ => failBringup _ _) _ _ _)
  | tableProfileArrival tag d =>
    cases h; exact closed (onEnd (fun _ _ => tableProfileArrived _ _) _ _ _)
  | tableProfileFault tag =>
    cases h
    exact closed (onEnd (fun _ _ => of_blocks (by simp) (by simp) (by simp)) _ _ _)
  | takenWriteCompletion tag => cases h; exact closed (onEnd (fun _ _ => takenWritten _) _ _ _)
  | linkArrival tag link => cases h; exact closed (onEnd (fun _ _ => linkArrived _ _) _ _ _)
  | resultWriteCompletion tag => cases h; exact closed (onEnd (fun _ _ => resultEnds _ _) _ _ _)
  | retirementWriteCompletion tag =>
    cases h; exact closed (onEnd (fun _ _ => retirementWritten _) _ _ _)
  | releaseWriteCompletion tag => cases h; exact closed (onEnd (fun _ _ => releaseEnds _ _) _ _ _)
  | chainAccessFault tag => cases h; exact closed (onEnd_of_awaits fun _ ended _ =>
    chainFault ended)
  | bufferAccessFault tag =>
    cases h
    exact closed (onEnd_of_awaits fun _ _ kind => (endAccess s tag).trans (bufferFault _ kind))
  | statusWriteCompletion tag =>
    cases h; exact closed (onStatusEnd statusWritten _ _)
  | statusWriteFault tag => cases h; exact closed (onStatusEnd statusFaulted _ _)
  | openWaitExpiry b =>
    cases h
    simp only [State.openWaitExpired]
    repeat' split
    all_goals exact of_blocks (by simp) (by simp) (by simp)
  | closeWaitExpiry b =>
    cases h
    simp only [State.closeWaitExpired]
    split <;> exact of_blocks (by simp) (by simp) (by simp)
  | idleCloseExpiry b =>
    cases h
    simp only [State.idleCloseExpired]
    split <;> exact of_blocks rfl rfl rfl
  | refreshWaitExpiry =>
    cases h
    simp only [State.refreshWaitExpired]
    split <;> exact of_blocks (by simp) (by simp) (by simp)
  | refreshPeriodExpiry =>
    cases h
    simp only [State.refreshPeriodExpired]
    repeat' split
    all_goals exact of_blocks rfl rfl rfl
  | holdMinExpiry _ | gapNearExpiry _ | gapFarExpiry _ | turnGapExpiry =>
    cases h; exact of_blocks rfl rfl rfl
  | resetHoldExpiry =>
    cases h
    simp only [State.resetHoldExpired]
    repeat' split
    all_goals exact of_blocks rfl rfl rfl
  | modeGapExpiry =>
    cases h
    simp only [State.modeGapExpired]
    repeat' split
    all_goals exact of_blocks rfl rfl rfl
  | deviceResetPhase =>
    cases h
    simp only [State.deviceResetPhase]
    split
    · exact (resumeAccepting _).after (of_blocks rfl rfl rfl)
    · exact refl s
  | arbiterIssue => cases h; exact of_blocks (by simp) (by simp) (by simp)

/-! ### Header arrivals -/

namespace State

/-- A release adds no header read. -/
theorem addsOnly_release (s : State) (a : Addr) :
    s.addsOnly (s.release a) (· != .headerRead) := by
  simp only [release]
  split
  · exact addsOnly_issue s (p := (· != .headerRead)) (kind := .releaseWrite a) _ _ _ rfl
  · exact addsOnly_of_eq rfl

theorem addsOnly_followAnchor (s : State) : s.addsOnly s.followAnchor (· != .headerRead) := by
  simp only [followAnchor]
  repeat' split
  · exact addsOnly_of_eq rfl
  · exact addsOnly_release s _
  all_goals exact addsOnly_of_eq rfl

/-- Taking a batch adds no header read (R98). -/
theorem addsOnly_takeBatch (s : State) (a : Addr) (d : Block64) :
    s.addsOnly (s.takeBatch a d) (· != .headerRead) := by
  have taken : ∀ t : State, t.addsOnly (t.writeTaken a) (· != .headerRead) := by
    intro t
    simp only [writeTaken]
    split
    · exact addsOnly_issue _ _ _ _ rfl
    · exact addsOnly_of_eq rfl
  exact s.addsOnly_followAnchor.trans (taken _)

@[simp] theorem release_batches (s : State) (a : Addr) : (s.release a).cu.batches =
  s.cu.batches := by
  simp only [release]
  split <;> rfl

/-- Following the anchor's link closes no batch and opens none. -/
theorem followAnchor_batches_length (s : State) :
    s.followAnchor.cu.batches.length = s.cu.batches.length := by
  simp only [followAnchor]
  repeat' split
  all_goals simp [updateBatch]

/-- A taken batch is one batch more (R98). -/
theorem takeBatch_batches_length (s : State) (a : Addr) (d : Block64) :
    (s.takeBatch a d).cu.batches.length = s.cu.batches.length + 1 := by
  simp [takeBatch, followAnchor_batches_length]

/-- What a header arrival does beside a chain step: in phase HEADER it may take the batch (R97,
R98). -/
theorem headerArrived_cases (s : State) (a : Addr) (d : Block64) :
    s.ChainStep (s.headerArrived a d)
      ∨ s.cu.phase = .header ∧ s.abandoning = false ∧ s.stopInForce = false
        ∧ s.headerArrived a d = s.takeBatch a d := by
  simp only [headerArrived]
  split
  · exact .inl (ChainStep.settleStop s)
  split
  · exact .inl ((ChainStep.endFetch s).trans (ChainStep.settleStop _))
  split
  case isFalse => exact .inl (ChainStep.refl s)
  case isTrue abandoning stop header =>
    split
    · exact .inr ⟨by simpa using header, by simpa using abandoning, by simpa using stop, rfl⟩
    · exact .inl (ChainStep.refuseBatch s)

end State

/-- A header arrival is a chain step, or takes a batch, whose header read was awaited (R97, R98). -/
theorem exec_headerArrival_cases {tag : Nat} {d : Block64} {s t : State}
    (h : exec (.headerArrival tag d) s = .next t) :
    s.ChainStep t ∨ ((s.batchLaw → t.batchLaw) ∧ s.cu.phase = .header
      ∧ t.cu.batches.length = s.cu.batches.length + 1
      ∧ s.addsOnly t (· != .headerRead)) := by
  cases h
  simp only [State.onEnd]
  split
  case h_2 => exact .inl (State.ChainStep.closeEvent s)
  case h_1 a ended =>
    obtain ⟨outstanding, kind⟩ := State.endedAccess_eq_some ended
    have ends := State.ChainStep.endAccess s tag
    split
    case isFalse => exact .inl (ends.trans (.closeEvent _))
    case isTrue live =>
      obtain step | ⟨header, abandoning, stop, taken⟩ :=
          (s.endAccess tag).headerArrived_cases a.addr d
      · exact .inl ((ends.trans step).trans (.closeEvent _))
      · refine .inr ⟨fun law => ?_, header, ?_, ?_⟩
        · exact (State.ChainStep.closeEvent _).law (State.batchLaw_headerArrived law
            ⟨outstanding, live⟩ (by simpa using kind) abandoning stop d)
        · simp [taken, State.takeBatch_batches_length]
        · rw [taken]
          exact State.addsOnly_of_endAccess
            ((State.addsOnly_takeBatch _ _ _).trans (State.addsOnly_closeEvent _ _))

/-- Every command keeps the law of the batches (R97, R98). -/
theorem exec_batchLaw {c : Instr} {s t : State} (h : exec c s = .next t) (law : s.batchLaw) :
    t.batchLaw := by
  by_cases header : ∃ tag d, c = .headerArrival tag d
  · obtain ⟨tag, d, rfl⟩ := header
    exact (exec_headerArrival_cases h).elim (·.law law) (·.1 law)
  · exact (exec_chainStep h fun tag d e => header ⟨tag, d, e⟩).law law

/-- A chain step opens no batch, and its new header reads issue while fewer than 8 are open. -/
theorem State.ChainStep.growth {s t : State} (h : s.ChainStep t) (a : BusAccess)
    (mem : a ∈ t.bi.accesses) (new : a ∉ s.bi.accesses) (header : a.kind = .headerRead)
    (live : a.live = true) : a ∈ s.cu.faulted ∨ a ∈ s.rt.faulted ∨ t.cu.batches.length < 8 := by
  obtain (old | chain | table) | few := h.known a header live (.inl mem)
  · exact absurd old new
  · exact .inl chain
  · exact .inr (.inl table)
  · exact .inr (.inr few)

/-- Settles O58: the counts among the laws of every command, the batches by the chain step. -/
theorem everyStepKeepsTheCountLaws : Obligations.EveryStepKeepsTheCountLaws := by
  refine ⟨fun s t owed poison size h => ?counts, fun s t law h => ?batches, fun s t h => ?growth⟩
  case counts =>
    obtain rfl | ⟨c, rest, -, next⟩ := step_cases h
    · exact ⟨owed, poison, size⟩
    · have keeps := exec_keepsLaws next
      exact ⟨keeps.owed owed, keeps.poison poison, keeps.size size⟩
  case batches =>
    obtain rfl | ⟨c, rest, -, next⟩ := step_cases h
    · exact law
    · exact exec_batchLaw next law
  case growth =>
    obtain rfl | ⟨c, rest, waiting, next⟩ := step_cases h
    · exact ⟨.inl le_rfl, fun a mem new => absurd mem new⟩
    by_cases header : ∃ tag d, c = .headerArrival tag d
    case neg =>
      have step := exec_chainStep next fun tag d e => header ⟨tag, d, e⟩
      exact ⟨.inl step.fewer, step.growth⟩
    case pos =>
      obtain ⟨tag, d, rfl⟩ := header
      obtain step | ⟨-, phase, more, adds⟩ := exec_headerArrival_cases next
      · exact ⟨.inl step.fewer, step.growth⟩
      · refine ⟨.inr ⟨tag, d, rest, waiting, phase, more⟩, fun a mem new header _ => ?_⟩
        obtain status | other := adds a mem new
        · rw [header] at status
          cases status
        · simp [header] at other

end Sys2Proof.Machine
end


section
/-! The step of the front command, the state after power-on reset, and the register window: writes
by offset, reads register by register (R158, R166, R167, R172, R174). -/

namespace Sys2Proof.Machine

/-! ## Steps and reset -/

/-- Settles O1: the two cases of the queue. -/
theorem stepRunsTheFrontCommand : Obligations.StepRunsTheFrontCommand := by
  refine ⟨fun c s rest front => ?_, fun s empty => ?_⟩
  · rw [step, front]
  · rw [step, empty]

@[simp] theorem State.slot_powerOn (s : State) (k : SlotId) : s.powerOn.slot k = Slot.empty :=
  Vector.getElem_replicate k.isLt

@[simp] theorem State.bank_powerOn (s : State) (b : BankId) : s.powerOn.bank b = Bank.empty :=
  Vector.getElem_replicate b.isLt

/-- Settles O4: every field is read off the power-on values of its block. -/
theorem powerOnResetSetsEveryBlock : Obligations.PowerOnResetSetsEveryBlock := by
  intro s
  have slots : ∀ k : SlotId, (s.powerOn.slot k).state = .free := fun k => by
    rw [State.slot_powerOn]; rfl
  have banks : ∀ b : BankId, (s.powerOn.bank b).state = .closed ∧ (s.powerOn.bank b).queue = []
      ∧ (s.powerOn.bank b).openWait = .stopped ∧ (s.powerOn.bank b).holdMin = .stopped
      ∧ (s.powerOn.bank b).closeWait = .stopped ∧ (s.powerOn.bank b).idleClose = .stopped :=
    fun b => by rw [State.bank_powerOn]; exact ⟨rfl, rfl, rfl, rfl, rfl, rfl⟩
  have gaps : ∀ g : GroupId, s.powerOn.mc.near[g] = .stopped ∧ s.powerOn.mc.far[g] = .stopped :=
    fun g => ⟨Vector.getElem_replicate g.isLt, Vector.getElem_replicate g.isLt⟩
  refine ⟨s.powerOn, rfl, ?_⟩
  simp only [slots, banks, gaps, implies_true, and_self, true_and]
  simp [State.powerOn, State.reset, EngineControl.reset, ChainUnit.reset, RequestTable.reset,
    BucketCache.reset, MemoryController.reset, StatusUpdate.idle, Sweep.idle]

theorem State.line_reset (i : SetId) (w : Way) : State.reset.line i w = Line.empty :=
  State.line_powerOn State.reset i w

theorem State.bank_reset (b : BankId) : State.reset.bank b = Bank.empty :=
  State.bank_powerOn State.reset b

/-- Settles O56: in COLD nothing is identified, owed, queued, claimed or open. -/
theorem resetSatisfiesEveryLaw : Obligations.ResetSatisfiesEveryLaw := by
  refine ⟨⟨nofun, nofun⟩, Nat.zero_le 4, Nat.zero_le 32, ⟨by decide, by decide⟩, fun b => ?queues,
    rfl, fun i => ?claims, ⟨by decide, by decide, by decide, nofun⟩⟩
  case queues =>
    rw [State.bank_reset]
    exact ⟨Nat.zero_le 16, nofun⟩
  case claims =>
    have unclaimed : ∀ w : Way, (State.reset.cacheSet i).lines[w].claim = none := fun w =>
      congrArg Line.claim (State.line_reset i w)
    have never : ∀ w : Way, (State.reset.cacheSet i).lines[w].claim.isSome ≠ true := fun w => by
      rw [unclaimed]; decide
    exact ⟨fun v w claimed => absurd claimed (never v), fun w claimed => absurd claimed (never w)⟩

/-! ## Causes, mask and interrupt line (R172) -/

/-- A nonzero word has a bit that is set. -/
theorem ne_zero_iff_exists_bit {n : Nat} (x : BitVec n) :
    x ≠ 0 ↔ ∃ i < n, x.getLsbD i = true := by
  constructor
  · intro nonzero
    by_contra none
    push Not at none
    exact nonzero (BitVec.eq_of_getLsbD_eq fun i hi => by simpa using none i hi)
  · rintro ⟨i, -, set⟩ rfl
    simp at set

theorem allEnabled_eq (be : BitVec 4) : allEnabled be = (be == 15) := rfl

theorem allEnabled_iff (be : BitVec 4) : allEnabled be = true ↔ be = 15 := beq_iff_eq

theorem allEnabled_of_ne {be : BitVec 4} (h : be ≠ 15) : allEnabled be = false :=
  beq_eq_false_iff_ne.mpr h

/-- Settles O14: bit by bit, with the enables by cases. -/
theorem causeAndMaskWrites : Obligations.CauseAndMaskWrites := by
  intro s v be
  refine ⟨⟨s.writeCause v be, rfl, ?_, fun i hi => ?_⟩,
    ⟨s.writeMask v be, rfl, ?_, fun i hi => ?_⟩, ?_⟩
  · unfold State.writeCause; split <;> rfl
  · rw [← allEnabled_eq]
    unfold State.writeCause
    split <;> simp_all
  · unfold State.writeMask; split <;> rfl
  · simp only [← allEnabled_iff]
    unfold State.writeMask
    split <;> simp_all
  · unfold State.interruptLine
    rw [bne_iff_ne, ne_zero_iff_exists_bit]
    simp [BitVec.getLsbD_and]

/-! ## The window (R166, R167, R174) -/

/-- A command arrival of a legal code is that command (R174). -/
theorem exec_registerWrite_cmd (s : State) (v : Word) :
    exec (.registerWrite 0 v 15) s = exec (.illegalCommand v) s := rfl

/-- A write of the window that changes nothing leaves a state that owes no status write alone. -/
theorem exec_registerWrite_of_eq {s : State} {off : Nat} {v : Word} {be : BitVec 4}
    (law : s.statusLaw) (same : s.writeRegister off v be = s) :
    exec (.registerWrite off v be) s = .next s := by
  change Host.Outcome.next (s.writeRegister off v be).closeEvent = _
  rw [same, State.closeEvent_eq_self law]

theorem exec_intcauseWrite_closed {s : State} (law : s.statusLaw) (v : Word) (be : BitVec 4) :
    exec (.registerWrite 20 v be) s = exec (.intcauseWrite v be) s := by
  change Host.Outcome.next (s.writeCause v be).closeEvent = .next (s.writeCause v be)
  rw [State.closeEvent_eq_self]
  unfold State.writeCause
  split <;> exact law

theorem exec_intmaskWrite_closed {s : State} (law : s.statusLaw) (v : Word) (be : BitVec 4) :
    exec (.registerWrite 24 v be) s = exec (.intmaskWrite v be) s := by
  change Host.Outcome.next (s.writeMask v be).closeEvent = .next (s.writeMask v be)
  rw [State.closeEvent_eq_self]
  unfold State.writeMask
  split <;> exact law

/-- From 1Ch on the window holds no register. -/
theorem State.writeRegister_of_ge (s : State) {off : Nat} (h : 28 ≤ off) (v : Word)
    (be : BitVec 4) : s.writeRegister off v be = s := by
  have : 7 ≤ off / 4 := by omega
  unfold State.writeRegister
  split <;> first | rfl | omega

theorem State.readRegister_of_ge (s : State) {off : Nat} (h : 28 ≤ off) :
    s.readRegister off = 0 := by
  have : 7 ≤ off / 4 := by omega
  unfold State.readRegister
  split <;> first | rfl | omega

/-- The offset of a byte's register addresses the same register. -/
theorem State.readRegister_aligned (s : State) (off : Nat) :
    s.readRegister (off - off % 4) = s.readRegister off := by
  have : (off - off % 4) / 4 = off / 4 := by omega
  rw [State.readRegister, State.readRegister, this]

theorem EngineState.code_lt (e : EngineState) : e.code < 8 := by
  cases e <;> decide

theorem FailureCause.code_lt (c : FailureCause) : c.code < 8 := by
  cases c <;> decide

theorem RefusalCause.code_lt (c : RefusalCause) : c.code < 4 := by
  cases c <;> decide

theorem bit_lt (b : Bool) : bit b < 2 := by
  cases b <;> decide

theorem bit_eq_ite (b : Bool) : bit b = if b then 1 else 0 := rfl

theorem bit_isSome {α : Type} (o : Option α) [Decidable (o = none)] :
    bit o.isSome = if o = none then 0 else 1 := by
  cases o <;> simp [bit]

/-- A field of the STATE word is a quotient and a residue of the sum that spells it (R167). -/
theorem State.toNat_stateWord (s : State) : s.stateWord.toNat =
    s.ec.engine.code + bit s.ec.stallHostFault * 2 ^ 3 + bit s.ec.stallBadBatch * 2 ^ 4
      + bit s.ec.statusWriteFault * 2 ^ 5 + bit s.cu.parked * 2 ^ 6
      + bit s.ec.refusedCommand.isSome * 2 ^ 7 + s.ec.failureCause.code * 2 ^ 8
      + s.ec.refusalCause.code * 2 ^ 11 + (s.ec.refusedCommand.getD 0).toNat * 2 ^ 16
      + s.mc.laneFaults.toNat * 2 ^ 24 := by
  have engine := s.ec.engine.code_lt
  have host := bit_lt s.ec.stallHostFault
  have bad := bit_lt s.ec.stallBadBatch
  have write := bit_lt s.ec.statusWriteFault
  have parked := bit_lt s.cu.parked
  have refused := bit_lt s.ec.refusedCommand.isSome
  have failure := s.ec.failureCause.code_lt
  have refusal := s.ec.refusalCause.code_lt
  have command := (s.ec.refusedCommand.getD 0).isLt
  have lanes := s.mc.laneFaults.isLt
  rw [State.stateWord, BitVec.toNat_ofNat, Nat.mod_eq_of_lt]
  omega

/-- The meaning of a register write, at the state it leaves. -/
theorem exec_registerWrite (off : Nat) (v : Word) (be : BitVec 4) (s : State) :
    exec (.registerWrite off v be) s = .next (s.writeRegister off v be).closeEvent := rfl

/-- A full-width write of a command code to CMD is the arrival of that command (R174). -/
theorem State.writeRegister_cmd (s : State) (v : Word) :
    s.writeRegister 0 v 15 = s.commandArrival v := rfl

/-- The fields of a word that is spelled as a sum of fields at their places are those fields. -/
theorem digits_of_sum {x a b c d e f g h i j : Nat}
    (word : x = a + b * 2 ^ 3 + c * 2 ^ 4 + d * 2 ^ 5 + e * 2 ^ 6 + f * 2 ^ 7 + g * 2 ^ 8 + h *
      2 ^ 11
      + i * 2 ^ 16 + j * 2 ^ 24)
    (ha : a < 8) (hb : b < 2) (hc : c < 2) (hd : d < 2) (he : e < 2) (hf : f < 2) (hg : g < 8)
    (hh : h < 4) (hi : i < 256) (hj : j < 256) :
    x / 2 ^ 0 % 2 ^ 3 = a ∧ x / 2 ^ 3 % 2 ^ 1 = b ∧ x / 2 ^ 4 % 2 ^ 1 = c ∧ x / 2 ^ 5 % 2 ^ 1 = d
      ∧ x / 2 ^ 6 % 2 ^ 1 = e ∧ x / 2 ^ 7 % 2 ^ 1 = f ∧ x / 2 ^ 8 % 2 ^ 3 = g
      ∧ x / 2 ^ 11 % 2 ^ 2 = h ∧ x / 2 ^ 13 % 2 ^ 3 = 0 ∧ x / 2 ^ 16 % 2 ^ 8 = i
      ∧ x / 2 ^ 24 % 2 ^ 8 = j := by
  refine ⟨?_, ?_, ?_, ?_, ?_, ?_, ?_, ?_, ?_, ?_, ?_⟩ <;> omega

/-- Bits `off` on of a word, `n` of them, as a quotient and a residue. -/
theorem toNat_extractLsb' {w : Nat} (x : BitVec w) (off n : Nat) :
    (x.extractLsb' off n).toNat = x.toNat / 2 ^ off % 2 ^ n := by
  rw [BitVec.extractLsb'_toNat, Nat.shiftRight_eq_div_pow]

/-- The fields of the STATE word, as quotients and residues (R167). -/
theorem State.stateWord_fields (s : State) :
    let state := fun off n => (s.stateWord.extractLsb' off n).toNat
    state 0 3 = s.ec.engine.code ∧ state 3 1 = bit s.ec.stallHostFault
    ∧ state 4 1 = bit s.ec.stallBadBatch ∧ state 5 1 = bit s.ec.statusWriteFault
    ∧ state 6 1 = bit s.cu.parked ∧ state 7 1 = bit s.ec.refusedCommand.isSome
    ∧ state 8 3 = s.ec.failureCause.code ∧ state 11 2 = s.ec.refusalCause.code ∧ state 13 3 = 0
    ∧ state 16 8 = (s.ec.refusedCommand.getD 0).toNat ∧ state 24 8 = s.mc.laneFaults.toNat := by
  have digits := digits_of_sum s.toNat_stateWord s.ec.engine.code_lt (bit_lt _) (bit_lt _)
    (bit_lt _) (bit_lt _) (bit_lt _) s.ec.failureCause.code_lt s.ec.refusalCause.code_lt
    (s.ec.refusedCommand.getD 0).isLt s.mc.laneFaults.isLt
  simpa only [toNat_extractLsb'] using digits

/-- Settles O15: writes offset by offset, reads register by register, and the fields of the STATE
word. -/
theorem registerWritesActByOffset : Obligations.RegisterWritesActByOffset := by
  refine ⟨fun s v be law => ?writes, fun s => ?reads, fun s => ?fields⟩
  case writes =>
    have narrow : ∀ off, (be ≠ 15 → s.writeRegister off v be = s) → be ≠ 15 →
        exec (.registerWrite off v be) s = .next s :=
      fun off same h => exec_registerWrite_of_eq law (same h)
    have command : ∀ x : Word, exec (.registerWrite 0 x 15) s =
        .next (s.commandArrival x).closeEvent := fun x => rfl
    refine ⟨?_, ?_, fun h => ⟨narrow 12 ?_ h, narrow 16 ?_ h⟩, ?_, fun off h _ => ?_, command 1,
      command 2, command 3, command 4, command 5, command 6, command v, narrow 0 ?_, fun h => ?_,
      exec_intcauseWrite_closed law v be, exec_intmaskWrite_closed law v be⟩
    · exact congrArg Host.Outcome.next (State.closeEvent_eq_self law)
    · exact congrArg Host.Outcome.next (State.closeEvent_eq_self law)
    · intro h; simp [State.writeRegister, allEnabled_of_ne h]
    · intro h; simp [State.writeRegister, allEnabled_of_ne h]
    · exact exec_registerWrite_of_eq law rfl
    · exact exec_registerWrite_of_eq law (s.writeRegister_of_ge h v be)
    · intro h; simp [State.writeRegister, allEnabled_of_ne h]
    · have nudges : s.writeRegister 8 v be = s.nudge := if_neg h
      rw [exec_registerWrite, nudges]
      rfl
  case reads =>
    refine ⟨rfl, rfl, rfl, rfl, ?_, ?_, fun off h => s.readRegister_of_ge h, fun off => ?_⟩
    · simp [State.readRegister]; omega
    · simp [State.readRegister]; omega
    · rw [State.readRegister_aligned]; rfl
  case fields =>
    have fields := s.stateWord_fields
    rw [bit_isSome] at fields
    exact fields

end Sys2Proof.Machine
end


section
/-! What the memory profile's bytes spell (R145), and the visits of a keyed request that finds its
key, places it, or goes on (R8, R9, R15, R18, R23 to R32). -/

namespace Sys2Proof.Machine

/-! ## The memory profile (R145) -/

/-- A field of `n` bytes is below `2 ^ (8 n)`. -/
theorem field_lt (d : Block64) (off n : Nat) : field d off n < 2 ^ (8 * n) :=
  (d.extractLsb' (8 * off) (8 * n)).isLt

theorem field_one_lt (d : Block64) (off : Nat) : field d off 1 < 256 := field_lt d off 1

theorem field_two_lt (d : Block64) (off : Nat) : field d off 2 < 65536 := field_lt d off 2

theorem closePolicyOf_eq_some_iff {n : Nat} {policy : ClosePolicy} :
    closePolicyOf n = some policy ↔ (n = 0 ∧ policy = .openPage) ∨
      (n = 1 ∧ policy = .closeEarly) := by
  unfold closePolicyOf
  split <;> cases policy <;> simp_all

/-- The decode: a close policy code, and every checked field in its range. -/
theorem decodeMemoryProfile_eq_some_iff {d : Block64} {p : MemoryProfile} :
    decodeMemoryProfile d = some p ↔ ∃ policy, closePolicyOf (field d 14 1) = some policy
      ∧ (memoryProfileFields d policy).inRanges = true ∧ memoryProfileFields d policy = p := by
  simp only [decodeMemoryProfile, Option.bind_eq_some_iff]
  refine exists_congr fun policy => and_congr_right fun _ => ?_
  split <;> simp_all

theorem inRange_iff {lo hi x : Nat} (h : x ≤ hi) : inRange lo hi x = true ↔ lo ≤ x := by
  simp [inRange, h]

/-- A one-byte field never exceeds 255, a two-byte field never 65535: the lower bounds are what the
ranges check. -/
theorem memoryProfileFields_inRanges (d : Block64) (policy : ClosePolicy) :
    (memoryProfileFields d policy).inRanges = true ↔
      (∀ i < 10, 1 ≤ field d i 1) ∧ 256 ≤ field d 10 2 ∧ 256 ≤ field d 12 2 := by
  have byte : ∀ off, inRange 1 255 (field d off 1) = true ↔ 1 ≤ field d off 1 :=
    fun off => inRange_iff (Nat.le_of_lt_succ (field_one_lt d off))
  have half : ∀ off, inRange 256 65535 (field d off 2) = true ↔ 256 ≤ field d off 2 :=
    fun off => inRange_iff (Nat.le_of_lt_succ (field_two_lt d off))
  have ten : (∀ i < 10, 1 ≤ field d i 1) ↔ 1 ≤ field d 0 1 ∧ 1 ≤ field d 1 1 ∧ 1 ≤ field d 2 1
      ∧ 1 ≤ field d 3 1 ∧ 1 ≤ field d 4 1 ∧ 1 ≤ field d 5 1 ∧ 1 ≤ field d 6 1
      ∧ 1 ≤ field d 7 1 ∧ 1 ≤ field d 8 1 ∧ 1 ≤ field d 9 1 := by
    simp only [Nat.forall_lt_succ_left, Nat.not_lt_zero, IsEmpty.forall_iff, implies_true, and_true]
  rw [ten]
  simp only [MemoryProfile.inRanges, memoryProfileFields, Bool.and_eq_true, byte, half, and_assoc]

/-- Settles O17: the fields are those of the decode; the ranges by their lower bounds. -/
theorem memoryProfileIsAcceptedInRange : Obligations.MemoryProfileIsAcceptedInRange := by
  refine ⟨fun d p decoded => ?fields, fun d => ?accepted⟩
  case fields =>
    obtain ⟨policy, code, -, rfl⟩ := decodeMemoryProfile_eq_some_iff.mp decoded
    refine ⟨rfl, rfl, rfl, rfl, rfl, rfl, rfl, rfl, rfl, rfl, rfl, rfl, ?_, ?_, fun i => ?_⟩
    · obtain ⟨zero, rfl⟩ | ⟨one, rfl⟩ := closePolicyOf_eq_some_iff.mp code <;>
        simp [memoryProfileFields, *]
    · obtain ⟨zero, rfl⟩ | ⟨one, rfl⟩ := closePolicyOf_eq_some_iff.mp code <;>
        simp [memoryProfileFields, *]
    · fin_cases i <;> rfl
  case accepted =>
    simp only [Option.isSome_iff_exists, decodeMemoryProfile_eq_some_iff,
      memoryProfileFields_inRanges, closePolicyOf_eq_some_iff]
    constructor
    · rintro ⟨_, policy, ⟨zero, -⟩ | ⟨one, -⟩, ranges, -⟩
      exacts [⟨.inl zero, ranges⟩, ⟨.inr one, ranges⟩]
    · rintro ⟨zero | one, ranges⟩
      exacts [⟨_, .openPage, .inl ⟨zero, rfl⟩, ranges, rfl⟩,
        ⟨_, .closeEarly, .inr ⟨one, rfl⟩, ranges, rfl⟩]

/-! ## The steps of a keyed request, visit by visit -/

theorem tableStep_visitOne {c : Context} (keyed : c.request.kind.keyed = true)
    (visit : c.visit = .one) (im : Image) : tableStep c im = visitOne c im := by
  rw [tableStep_of_keyed keyed, keyedStep, visit]

theorem tableStep_visitTwo {c : Context} (keyed : c.request.kind.keyed = true)
    (visit : c.visit = .two) (im : Image) : tableStep c im = visitTwo c im := by
  rw [tableStep_of_keyed keyed, keyedStep, visit]

theorem tableStep_visitThree {c : Context} (keyed : c.request.kind.keyed = true)
    (visit : c.visit = .three) (im : Image) : tableStep c im = visitThree c im := by
  rw [tableStep_of_keyed keyed, keyedStep, visit]

/-- What visit 1 or 2 does with the key found: the request ends, or, at A with a reservation or for
a DELETE, its result is pending and it returns to P (R23, R25, R28). -/
def foundStep (c : Context) (applied : Image × Bool × Result) : StepResult :=
  if c.visit = .two ∧ (c.reserved = true ∨ c.request.kind = .delete) then
    goOnStep { c with pendingResult := some applied.2.2 } applied.1 applied.2.1 .three
  else finalStep c applied.1 applied.2.1 applied.2.2

theorem tableStep_of_found {c : Context} {im : Image} {k : Fin 5}
    (keyed : c.request.kind.keyed = true) (early : c.visit ≠ .three)
    (found : im.search c.request.key = some k) :
    tableStep c im = foundStep c (applyFound c im k) := by
  cases visit : c.visit with
  | one =>
    rw [tableStep_visitOne keyed visit]
    simp [visitOne, found, foundStep, visit]
  | two =>
    rw [tableStep_visitTwo keyed visit]
    simp [visitTwo, found, foundStep, visit]
  | three => exact absurd visit early

/-- The side of a visit before the third (R13). -/
theorem Context.side_of_early {c : Context} (early : c.visit ≠ .three) :
    c.side = if c.visit = .one then .primary else .alternate := by
  unfold Context.side
  cases visit : c.visit <;> simp_all

theorem Context.at_of_early {c : Context} (early : c.visit ≠ .three) (k : Fin 5) :
    c.at k = some ⟨c.bucket, k, if c.visit = .one then .primary else .alternate⟩ := by
  rw [Context.at, Context.side_of_early early]

theorem applyFound_delete {c : Context} (kind : c.request.kind = .delete) (im : Image) (k : Fin 5) :
    applyFound c im k = (im.remove k, true, ⟨.deleted, c.at k, im.slots[k].value⟩) := by
  simp only [applyFound, kind]

theorem applyFound_lookup {c : Context} (kind : c.request.kind = .lookup) (im : Image) (k : Fin 5) :
    applyFound c im k = (im, false, ⟨.found, c.at k, im.slots[k].value⟩) := by
  simp only [applyFound, kind, onFound]

theorem applyFound_add {c : Context} (kind : c.request.kind = .insert .add) (im : Image)
    (k : Fin 5) : applyFound c im k = (im, false, ⟨.exists, c.at k, im.slots[k].value⟩) := by
  simp only [applyFound, kind, onFound]

theorem applyFound_insert {c : Context} {mode : InsertMode} (kind : c.request.kind = .insert mode)
    (overwrites : mode ≠ .add) (im : Image) (k : Fin 5) :
    applyFound c im k =
      (im.overwrite k c.request.operand, true, ⟨.replaced, c.at k, im.slots[k].value⟩) := by
  cases mode <;> simp_all [applyFound, onFound]

/-! ## A removed slot (R5, R9) -/

theorem Image.slots_remove_self (im : Image) (k : Fin 5) : (im.remove k).slots[k] = ⟨0, 0⟩ :=
  Vector.getElem_set_self k.isLt

theorem Image.occupied_remove_self (im : Image) (k : Fin 5) : (im.remove k).occupied k = false := by
  have bit : (~~~(1#8 <<< k.val)).getLsbD k = false := by
    revert k
    decide
  simp [Image.remove, Image.occupied, bit]

/-- Settles O54: the key found by the kind, and not found by the visit. -/
theorem lookupSearchesItsBuckets : Obligations.LookupSearchesItsBuckets := by
  intro c im keyed notPlacing unreserved early at'
  have location : ∀ k, c.at k = at' k := Context.at_of_early early
  have ends : ∀ applied, c.request.kind ≠ .delete → foundStep c applied =
      finalStep c applied.1 applied.2.1 applied.2.2 := fun applied kind => by
    simp [foundStep, kind, unreserved]
  have missing : im.search c.request.key = none →
      (c.visit = .one → im.spill = 0 → tableStep c im = ⟨im, false, c, .final (.bare .absent)⟩)
      ∧ (c.visit = .one → im.spill ≠ 0 →
        tableStep c im = ⟨im, false, { c with visit := .two }, .goOn⟩)
      ∧ (c.visit = .two → tableStep c im = ⟨im, false, c, .final (.bare .absent)⟩) := by
    intro absent
    refine ⟨fun visit zero => ?_, fun visit nonzero => ?_, fun visit => ?_⟩
    · rw [tableStep_visitOne keyed visit]
      simp [visitOne, absent, notPlacing, zero, finalStep]
    · rw [tableStep_visitOne keyed visit]
      simp only [visitOne, absent, notPlacing, if_neg nonzero, goOnStep, Bool.false_eq_true,
        if_false]
    · rw [tableStep_visitTwo keyed visit]
      simp [visitTwo, absent, notPlacing, finalStep]
  have finds : ∀ k, im.search c.request.key = some k → c.request.kind = .lookup →
      tableStep c im = ⟨im, false, c, .final ⟨.found, at' k, im.slots[k].value⟩⟩ := by
    intro k found kind
    rw [tableStep_of_found keyed early found, applyFound_lookup kind, ends _ (by simp [kind]),
      location]
    rfl
  refine ⟨fun kind => ?lookup, fun k found => ⟨finds k found, fun kind => ?replace,
    fun clamp kind => ?accumulate, fun kind => ?delete, im.occupied_remove_self k,
    im.slots_remove_self k, rfl⟩, missing⟩
  case lookup =>
    cases found : im.search c.request.key with
    | some k => rw [finds k found kind]; exact ⟨rfl, rfl⟩
    | none =>
      obtain ⟨absent, goesOn, ended⟩ := missing found
      cases visit : c.visit with
      | one =>
        by_cases zero : im.spill = 0
        · rw [absent visit zero]; exact ⟨rfl, rfl⟩
        · rw [goesOn visit zero]; exact ⟨rfl, rfl⟩
      | two => rw [ended visit]; exact ⟨rfl, rfl⟩
      | three => exact absurd visit early
  case replace =>
    rw [tableStep_of_found keyed early found, applyFound_insert kind (by decide),
      ends _ (by simp [kind]), location]
    rfl
  case accumulate =>
    rw [tableStep_of_found keyed early found, applyFound_accumulate kind, ends _ (by simp [kind]),
      location]
    rfl
  case delete =>
    rw [tableStep_of_found keyed early found, applyFound_delete kind, location]
    refine ⟨fun visit => ?_, fun visit => ?_⟩
    · simp [foundStep, visit, finalStep]
    · simp [foundStep, visit, kind, goOnStep]

/-! ## Placing (R9, R24 to R26, R32) -/

theorem Kind.keyed_of_placing {kind : Kind} (placing : kind.placing = true) : kind.keyed =
    true := by
  cases kind <;> simp_all [Kind.placing, Kind.keyed]

theorem Image.freeSlot_eq_some_iff (im : Image) (k : Fin 5) : im.freeSlot = some k ↔
    im.occupied k = false ∧ ∀ j : Fin 5, j < k → im.occupied j = true := by
  simp only [Image.freeSlot, find?_slotOrder, Fin.find?_eq_some_iff, Bool.not_eq_true',
    Bool.not_eq_false']

theorem Image.freeSlot_eq_none_iff (im : Image) :
    im.freeSlot = none ↔ ∀ k : Fin 5, im.occupied k = true := by
  simp only [Image.freeSlot, find?_slotOrder, Fin.find?_eq_none_iff, Bool.not_eq_false']

/-- The count of a bucket plays no part in what its slots are. -/
theorem Image.freeSlot_release (im : Image) : im.release.freeSlot = im.freeSlot := rfl

/-- A count below 255 rises by one (R15). -/
theorem Image.reserve_of_ne {im : Image} (h : im.spill ≠ 255) :
    im.reserve = { im with spill := im.spill + 1 } := by
  rw [Image.reserve, if_neg h]

theorem Context.at_primary {c : Context} (visit : c.visit ≠ .two) (k : Fin 5) :
    c.at k = some ⟨c.bucket, k, .primary⟩ := by
  unfold Context.at Context.side
  cases h : c.visit <;> simp_all

/-- A visit 1 of a placing request that finds no key and cannot place reserves and goes on (R24). -/
theorem visitOne_reserves {c : Context} {im : Image} (placing : c.request.kind.placing = true)
    (absent : im.search c.request.key = none) (some : im.spill ≠ 255)
    (full : im.spill = 0 → im.freeSlot = none) : visitOne c im = reserveStep c im := by
  by_cases zero : im.spill = 0
  · simp only [visitOne, absent, placing, zero, full zero, if_true]
  · simp only [visitOne, absent, placing, if_neg zero, if_neg some, if_true]

/-- The value placed: 0 for an ACCUMULATE with CLAMP and a negative delta, and the operand
otherwise. -/
theorem placedValue_eq (kind : Kind) (operand : BitVec 64) : placedValue kind operand =
    if (∃ create, kind = .accumulate create true) ∧ operand.toInt < 0 then 0 else operand := by
  cases kind with
  | accumulate create clamp => cases clamp <;> simp [placedValue, BitVec.msb_eq_toInt]
  | _ => simp [placedValue]

/-- What a placing request does with the key found, by its kind (R24, R25, R30, R31). -/
theorem applyFound_of_placing {c : Context} (placing : c.request.kind.placing = true) (im : Image)
    (k : Fin 5) : applyFound c im k =
      let old := im.slots[k].value
      let (new, code, value) : Option (BitVec 64) × ResultCode × BitVec 64 :=
        match c.request.kind with
        | .insert .add => (none, .exists, old)
        | .accumulate _ clamp =>
          (some (accumulate clamp old c.request.operand).1,
            (accumulate clamp old c.request.operand).2,
            (accumulate clamp old c.request.operand).1)
        | _ => (some c.request.operand, .replaced, old)
      ((new.map (im.overwrite k)).getD im, new.isSome, ⟨code, c.at k, value⟩) := by
  rcases kind : c.request.kind with _ | mode | _ | ⟨create, clamp⟩ | _ | _ | _ | _ | _
  case insert =>
    cases mode with
    | add => rw [applyFound_add kind]; rfl
    | replace => simp [kind, Kind.placing] at placing
    | upsert => rw [applyFound_insert kind (by decide)]; rfl
  case accumulate => rw [applyFound_accumulate kind]; rfl
  all_goals simp [kind, Kind.placing] at placing

/-- Settles O55: visit by visit, the key found or absent, and the spill count by cases. -/
theorem placingRequestsPlaceOrReserve : Obligations.PlacingRequestsPlaceOrReserve := by
  refine ⟨fun c im placing => ?steps, fun im => ?slots, placedValue_eq⟩
  case slots =>
    exact ⟨fun k => rfl, im.freeSlot_eq_some_iff, im.freeSlot_eq_none_iff, fun k key v => rfl⟩
  case steps =>
    intro v
    have keyed := Kind.keyed_of_placing placing
    refine ⟨fun visit absent zero k free => ?one_placed, fun visit absent some full =>
      ?one_reserved,
      fun visit absent most => ?one_full, fun visit absent k free => ?two_placed,
      fun visit absent full => ?two_full, fun visit pending k free => ?three_placed,
      fun visit pending full => ?three_full, fun k found => ?found, fun r visit pending => ?pending⟩
    case one_placed =>
      rw [tableStep_visitOne keyed visit, ← Context.at_primary (by simp [visit])]
      simp only [visitOne, absent, placing, zero, free, if_true]
      rfl
    case one_reserved =>
      rw [tableStep_visitOne keyed visit, visitOne_reserves placing absent some full]
      simp only [reserveStep, goOnStep, Image.reserve_of_ne some]
    case one_full =>
      rw [tableStep_visitOne keyed visit]
      simp [visitOne, absent, placing, most, finalStep]
    case two_placed =>
      have side : c.at k = some ⟨c.bucket, k, .alternate⟩ := by
        simp [Context.at, Context.side, visit]
      rw [tableStep_visitTwo keyed visit, ← side]
      simp only [visitTwo, absent, placing, free, if_true]
      rfl
    case two_full =>
      rw [tableStep_visitTwo keyed visit]
      simp only [visitTwo, absent, placing, full, if_true, goOnStep]
    case three_placed =>
      have place : (visitThree c im) = placeStep { c with reserved := false } im.release k := by
        simp only [visitThree, pending, placing, Image.freeSlot_release, free, if_true]
      rw [tableStep_visitThree keyed visit, place, ← Context.at_primary (by simp [visit])]
      exact ⟨rfl, rfl, im.toNat_spill_release, rfl⟩
    case three_full =>
      rw [tableStep_visitThree keyed visit]
      simp only [visitThree, pending, placing, Image.freeSlot_release, full, if_true]
      exact ⟨rfl, rfl, im.toNat_spill_release, rfl⟩
    case found =>
      have notDelete : c.request.kind ≠ .delete := fun kind => by
        simp [kind, Kind.placing] at placing
      have applied := applyFound_of_placing placing im k
      refine ⟨fun early => ?_, fun visit reserved => ?_⟩
      · have notThree : c.visit ≠ .three := by rcases early with h | ⟨h, -⟩ <;> simp [h]
        have ends : ¬(c.visit = .two ∧ (c.reserved = true ∨ c.request.kind = .delete)) := by
          rcases early with h | ⟨h, h'⟩ <;> simp [h, notDelete]
          simp [h']
        rw [tableStep_of_found keyed notThree found, foundStep, if_neg ends, applied,
          Context.at_of_early notThree]
        rfl
      · have notThree : c.visit ≠ .three := by simp [visit]
        rw [tableStep_of_found keyed notThree found, foundStep, if_pos ⟨visit, .inl reserved⟩,
          applied, Context.at_of_early notThree]
        rfl
    case pending =>
      rw [tableStep_visitThree_of_pending keyed visit pending]
      exact ⟨rfl, rfl, im.toNat_spill_release, rfl, rfl, rfl⟩

end Sys2Proof.Machine
end


section
/-! How an event ends, in the words of the statements; and the commands that begin or stop
something: BRINGUP, START, STOP and ABANDON in CLEARING, NUDGE, and what is illegal (R102, R145,
R152, R155, R159, R161). -/

namespace Sys2Proof.Machine

/-! ## Status updates and causes, field by field (R169, R171) -/

@[simp] theorem State.statusUpdate_waitingCauses (s : State) :
    s.statusUpdate.ec.status.waitingCauses = s.ec.status.waitingCauses := by
  unfold State.statusUpdate; split <;> rfl

@[simp] theorem State.statusUpdate_attachedCauses (s : State) :
    s.statusUpdate.ec.status.attachedCauses = s.ec.status.attachedCauses := by
  unfold State.statusUpdate; split <;> rfl

@[simp] theorem State.statusUpdate_outstanding (s : State) :
    s.statusUpdate.ec.status.outstanding = s.ec.status.outstanding := by
  unfold State.statusUpdate; split <;> rfl

@[simp] theorem State.statusUpdate_stallReportIssued (s : State) :
    s.statusUpdate.ec.status.stallReportIssued = s.ec.status.stallReportIssued := by
  unfold State.statusUpdate; split <;> rfl

theorem State.statusUpdate_owed {s : State} (h : s.ec.statusAddr.isSome = true) :
    s.statusUpdate.ec.status.owed = .now := by
  simp [State.statusUpdate, h]

/-- With no address known a status update owes nothing. -/
theorem State.statusUpdate_of_none {s : State} (h : s.ec.statusAddr = none) :
    s.statusUpdate = s := by
  simp [State.statusUpdate, h]

@[simp] theorem State.raise_attachedCauses (s : State) (cause : BitVec 5) :
    (s.raise cause).ec.status.attachedCauses = s.ec.status.attachedCauses := by
  unfold State.raise; split <;> rfl

@[simp] theorem State.raise_outstanding (s : State) (cause : BitVec 5) :
    (s.raise cause).ec.status.outstanding = s.ec.status.outstanding := by
  unfold State.raise; split <;> rfl

@[simp] theorem State.raise_stallReportIssued (s : State) (cause : BitVec 5) :
    (s.raise cause).ec.status.stallReportIssued = s.ec.status.stallReportIssued := by
  unfold State.raise; split <;> rfl

@[simp] theorem State.raise_owed (s : State) (cause : BitVec 5) :
    (s.raise cause).ec.status.owed = s.ec.status.owed := by
  unfold State.raise; split <;> rfl

theorem State.raise_waitingCauses {s : State} (h : s.ec.statusAddr.isSome = true)
    (cause : BitVec 5) :
    (s.raise cause).ec.status.waitingCauses = s.ec.status.waitingCauses ||| cause := by
  simp [State.raise, h]

/-! ## The end of an event -/

theorem State.sameWindow.close {s u : State} (h : s.sameWindow u) : s.sameWindow u.closeEvent :=
  h.trans u.sameWindow_closeEvent

theorem State.keepsAccesses.close {s u : State} (h : s.keepsAccesses u) :
    s.keepsAccesses u.closeEvent :=
  h.trans u.keepsAccesses_closeEvent

theorem State.endsAccess.close {s u : State} {tag : Nat} (h : s.endsAccess tag u) :
    s.endsAccess tag u.closeEvent :=
  List.IsPrefix.trans h u.closeEvent_keeps

theorem State.addsOnly.close {s u : State} {p : AccessKind → Bool} (h : s.addsOnly u p) :
    s.addsOnly u.closeEvent p :=
  h.trans (u.addsOnly_closeEvent p)

theorem State.sameTablePath.close {s u : State} (h : s.sameTablePath u) :
    s.sameTablePath u.closeEvent := by
  simpa [State.sameTablePath] using h

/-- Two states that are the same close alike: what an event's operation is, its outcome is. -/
theorem next_closeEvent {u v : State} (h : u = v) :
    (.next u.closeEvent : Host.Outcome State Fault Refusal) = .next v.closeEvent := by
  rw [h]

/-- An access left off the bus, and none added. -/
theorem State.endsAccess_of_eq {s u : State} {tag : Nat}
    (h : u.bi.accesses = (s.endAccess tag).bi.accesses) : s.endsAccess tag u :=
  State.keepsAccesses.ends (State.keepsAccesses_of_eq h)

theorem State.addsOnly_of_endAccess_eq {s u : State} {p : AccessKind → Bool} (tag : Nat)
    (h : u.bi.accesses = (s.endAccess tag).bi.accesses) : s.addsOnly u p :=
  State.addsOnly_of_endAccess (State.addsOnly_of_eq h)

/-- Issuing an access keeps the others. -/
theorem State.keepsAccesses_append {s u : State} {l : List BusAccess}
    (h : u.bi.accesses = s.bi.accesses ++ l) : s.keepsAccesses u :=
  ⟨l, h.symm⟩

theorem State.addsOnly_append {s u : State} {p : AccessKind → Bool} {l : List BusAccess}
    (h : u.bi.accesses = s.bi.accesses ++ l) (hl : ∀ a ∈ l, p a.kind = true) : s.addsOnly u p := by
  intro a ha hn
  rw [h, List.mem_append] at ha
  exact .inr (hl a (ha.resolve_left hn))

/-- From `v` to `w` nothing moves on which a status write depends. -/
def State.sameStatus (v w : State) : Prop :=
  w.ec.engine = v.ec.engine ∧ w.ec.statusAddr = v.ec.statusAddr ∧ w.ec.intCause = v.ec.intCause
    ∧ w.ec.status = v.ec.status

theorem State.sameStatus_of_ec {v w : State} (h : w.ec = v.ec) : v.sameStatus w := by
  simp [State.sameStatus, h]

/-- A status update with a cause, among the last things an event does to the Engine Control, in an
event that has not touched the causes before and is not held back by a stall report. -/
theorem State.raisesCause_of_same {s u w : State} (cause : BitVec 5)
    (same : (u.statusUpdate.raise cause).sameStatus w)
    (addr : u.ec.statusAddr = s.ec.statusAddr) (set : u.ec.intCause = s.ec.intCause)
    (waiting : u.ec.status.waitingCauses = s.ec.status.waitingCauses)
    (attached : u.ec.status.attachedCauses = s.ec.status.attachedCauses)
    (outstanding : u.ec.status.outstanding = s.ec.status.outstanding)
    (free : ¬(u.ec.engine = .stalled ∧ u.ec.status.stallReportIssued = true)) :
    s.raisesCause w.closeEvent cause := by
  obtain ⟨engine', addr', set', status'⟩ := same
  refine State.raisesCause_closeEvent (by simpa [addr'] using addr) (fun none => ?_) fun known => ?_
  · rw [set', State.raise_intCause_of_none _ _ (by simpa [addr] using none)]
    simp [set]
  · have known' : u.ec.statusAddr.isSome = true := addr ▸ known
    rw [engine', set', status']
    refine ⟨?_, ?_, ?_, by simpa using attached, by simpa using outstanding, by simpa using free⟩
    · rw [State.raise_intCause_of_some _ _ (by simpa using known')]
      simpa using set
    · rw [State.raise_owed, State.statusUpdate_owed known']
    · rw [State.raise_waitingCauses (by simpa using known'), State.statusUpdate_waitingCauses,
        waiting]

/-- A status update with a cause, as the last thing an event does. -/
theorem State.raisesCause_update {s u : State} (cause : BitVec 5)
    (addr : u.ec.statusAddr = s.ec.statusAddr) (set : u.ec.intCause = s.ec.intCause)
    (waiting : u.ec.status.waitingCauses = s.ec.status.waitingCauses)
    (attached : u.ec.status.attachedCauses = s.ec.status.attachedCauses)
    (outstanding : u.ec.status.outstanding = s.ec.status.outstanding)
    (free : ¬(u.ec.engine = .stalled ∧ u.ec.status.stallReportIssued = true)) :
    s.raisesCause (u.statusUpdate.raise cause).closeEvent cause :=
  State.raisesCause_of_same cause (State.sameStatus_of_ec rfl) addr set waiting attached outstanding
    free

/-! ## BRINGUP (R145) -/

theorem aligned64_iff (a : Addr) : aligned64 a = true ↔ a.toNat % 64 = 0 := beq_iff_eq

theorem State.setupAddr_of_bi {s t : State} (h : t.bi = s.bi) : t.setupAddr = s.setupAddr := by
  rw [State.setupAddr, State.setupAddr, h]

@[simp] theorem State.enterProbing_bi (s : State) : s.enterProbing.bi = s.bi := by
  simp [State.enterProbing]

theorem State.bringup_of_legal {s : State} (legal : s.ec.engine = .cold ∨ s.ec.engine = .failed) :
    s.bringup = s.enterProbing.readMemoryProfile := by
  rcases legal with h | h <;> simp [State.bringup, h]

theorem State.readMemoryProfile_of_aligned {s : State} (h : s.setupAddr.toNat % 64 = 0) :
    s.readMemoryProfile =
      (s.setSequencer (.profile s.bi.nextTag)).issueRead .memoryProfileRead s.setupAddr 64 := by
  rw [State.readMemoryProfile, if_pos ((aligned64_iff _).mpr h)]

theorem State.readMemoryProfile_of_misaligned {s : State} (h : s.setupAddr.toNat % 64 ≠ 0) :
    s.readMemoryProfile = s.failBringup .profile := by
  rw [State.readMemoryProfile, if_neg (mt (aligned64_iff _).mp h)]

/-- Settles O6: the two setup addresses by cases. -/
theorem bringupReadsTheMemoryProfile : Obligations.BringupReadsTheMemoryProfile := by
  intro s legal
  refine ⟨_, next_closeEvent
    (State.bringup_of_legal legal), ?_⟩
  have addr : s.enterProbing.setupAddr = s.setupAddr := State.setupAddr_of_bi (by simp)
  by_cases aligned : s.setupAddr.toNat % 64 = 0
  case pos =>
    rw [State.readMemoryProfile_of_aligned (by rwa [addr]), addr]
    have read := State.hasIssued_issueRead (s.enterProbing.setSequencer
      (.profile s.enterProbing.bi.nextTag)) .memoryProfileRead s.setupAddr 64
    have adds : ((s.enterProbing.setSequencer (.profile s.enterProbing.bi.nextTag)).issueRead
        .memoryProfileRead s.setupAddr 64).bi.accesses = s.bi.accesses ++
          [⟨s.bi.nextTag, .memoryProfileRead, s.setupAddr, 64, [], true⟩] := by simp
    refine ⟨?_, ?_, State.sameWindow.close ?_, (State.keepsAccesses_append adds).close,
      (State.addsOnly_append adds (by simp)).close, ?_, ?_, ?_, ?_,
      fun _ => ⟨?_, ?_, ?_, read.closeEvent, ?_, ?_⟩, fun h => absurd aligned h⟩
    case refine_1 => simp [State.enterProbing, State.setSequencer]
    case refine_2 => apply EngineControl.ext <;> simp [State.enterProbing]
    case refine_3 => simp [State.sameWindow, State.enterProbing]
    all_goals simp [State.enterProbing, State.setSequencer]
  case neg =>
    rw [State.readMemoryProfile_of_misaligned (by rwa [addr])]
    refine ⟨?_, ?_, State.sameWindow.close ?_, (State.keepsAccesses_of_eq ?_).close,
      (State.addsOnly_of_eq ?_).close, ?_, ?_, ?_, ?_, fun h => absurd h aligned,
      fun _ => ⟨?_, ?_, ?_, ?_, ?_, fun a ha hn => ?_⟩⟩
    case refine_1 => simp [State.failBringup, State.enterProbing]
    case refine_2 => apply EngineControl.ext <;> simp [State.failBringup, State.enterProbing]
    case refine_14 =>
      exact State.raisesCause_update causeState (by simp [State.enterProbing])
        (by simp [State.enterProbing]) (by simp [State.enterProbing])
        (by simp [State.enterProbing]) (by simp [State.enterProbing]) (by simp)
    case refine_15 => exact State.closeEvent_adds ha (by simpa using hn)
    all_goals simp [State.failBringup, State.sameWindow, State.enterProbing]

/-! ## START (R152) -/

theorem State.start_of_legal {s : State} (ready : s.ec.engine = .ready)
    (first : s.ec.startRead = none) (none : ∀ a ∈ s.bi.accesses, a.kind ≠ .tableProfileRead) :
    s.start = s.readTableProfile := by
  have idle : s.readsTableProfile = false := by
    simpa [State.readsTableProfile, List.any_eq_false] using none
  simp [State.start, ready, first, idle]

theorem State.readTableProfile_of_aligned {s : State} (h : s.setupAddr.toNat % 64 = 0) :
    s.readTableProfile =
      ({ s with ec := { s.ec with startRead := some s.bi.nextTag } } : State).issueRead
        .tableProfileRead (s.setupAddr + 64) 64 := by
  rw [State.readTableProfile, if_pos ((aligned64_iff _).mpr h)]

theorem State.readTableProfile_of_misaligned {s : State} (h : s.setupAddr.toNat % 64 ≠ 0) :
    s.readTableProfile = s.refuseStart .profile := by
  rw [State.readTableProfile, if_neg (mt (aligned64_iff _).mp h)]

/-- A refused START, at the end of its event (R152). -/
theorem State.refuseStart_closeEvent_ec (s : State) (cause : RefusalCause) :
    (s.refuseStart cause).closeEvent.ec = { s.ec with
      refusalCause := cause, startRead := none
      status := (s.refuseStart cause).closeEvent.ec.status
      intCause := (s.refuseStart cause).closeEvent.ec.intCause } := by
  apply EngineControl.ext <;> simp [State.refuseStart]

theorem State.raisesCause_refuseStart {s u : State} (ec : u.ec = s.ec)
    (ready : s.ec.engine = .ready) (cause : RefusalCause) :
    s.raisesCause (u.refuseStart cause).closeEvent 8 :=
  State.raisesCause_update causeState (by simp [ec]) (by simp [ec]) (by simp [ec]) (by simp [ec])
    (by simp [ec]) (by simp [ec, ready])

@[simp] theorem State.refuseStart_intMask (s : State) (cause : RefusalCause) :
    (s.refuseStart cause).ec.intMask = s.ec.intMask := by
  simp [State.refuseStart]

/-- Settles O7: the two setup addresses by cases. -/
theorem startReadsTheTableProfile : Obligations.StartReadsTheTableProfile := by
  intro s ready first none
  refine ⟨_, next_closeEvent
    (State.start_of_legal ready first none), ?_⟩
  by_cases aligned : s.setupAddr.toNat % 64 = 0
  case pos =>
    rw [State.readTableProfile_of_aligned aligned]
    generalize reading : ({ s with ec := { s.ec with startRead := some s.bi.nextTag } } : State)
      = u
    have bi : u.bi = s.bi := by rw [← reading]
    have read := u.hasIssued_issueRead .tableProfileRead (s.setupAddr + 64) 64
    have adds : (u.issueRead .tableProfileRead (s.setupAddr + 64) 64).bi.accesses
        = s.bi.accesses ++ [⟨s.bi.nextTag, .tableProfileRead, s.setupAddr + 64, 64, [], true⟩] := by
      rw [State.issueRead_accesses, bi]
    refine ⟨?_, State.sameWindow.close ?_, (State.keepsAccesses_append adds).close,
      (State.addsOnly_append adds (by simp)).close, State.sameTablePath.close ?_, ?_,
      fun _ => ⟨?_, ?_, ?_, read.closeEvent⟩, fun h => absurd aligned h⟩
    case refine_1 => subst reading; apply EngineControl.ext <;> simp
    all_goals subst reading; simp [State.sameWindow, State.sameTablePath]
  case neg =>
    rw [State.readTableProfile_of_misaligned aligned]
    refine ⟨?_, State.sameWindow.close ?_, (State.keepsAccesses_of_eq (by simp)).close,
      (State.addsOnly_of_eq (by simp)).close, State.sameTablePath.close ?_, ?_,
      fun h => absurd h aligned, fun _ => ⟨?_, ?_,
        State.raisesCause_refuseStart rfl ready .profile⟩⟩
    case refine_1 =>
      rw [State.refuseStart_closeEvent_ec]
    all_goals simp [State.sameWindow, State.sameTablePath, State.refuseStart]

/-! ## STOP and ABANDON in CLEARING (R155, R161) -/

/-- An event that leaves the Engine Control's engine, address and status as they were closes without
a status write where none was due. -/
theorem State.closeEvent_of_ec {s u : State} (law : s.statusLaw)
    (engine : u.ec.engine = s.ec.engine) (addr : u.ec.statusAddr = s.ec.statusAddr)
    (status : u.ec.status = s.ec.status) : u.closeEvent = u :=
  State.closeEvent_eq_self ((statusDue_of_eq engine status addr).trans law)

/-- While lines are discarded or writes are outstanding the interrupted sweep goes on (R155, R161).
-/
theorem State.stopSweep_of_busy {s : State} (first : s.ec.ending = .none)
    (busy : s.ec.sweep.phase = .discard ∨ s.ec.sweep.outstanding ≠ 0) (ending : Ending) :
    s.stopSweep ending = { s with ec := { s.ec with
      ending := ending
      sweep := { s.ec.sweep with
        phase := if s.ec.sweep.phase = .writing then .draining else s.ec.sweep.phase } } } := by
  simp only [State.stopSweep, first, beq_self_eq_true, if_true, State.checkSweepEnd, beq_iff_eq]
  refine if_neg fun drained => ?_
  simp only [Bool.and_eq_true, beq_iff_eq] at drained
  obtain ⟨draining, zero⟩ := drained
  rcases busy with discard | some
  · simp [discard] at draining
  · exact some zero

/-- Settles O9: the sweep is not at its end, and no status write is due. -/
theorem stopAndAbandonInClearingDrainTheSweep :
    Obligations.StopAndAbandonInClearingDrainTheSweep := by
  intro s clearing law
  have stops : exec .stop s = .next (s.stopSweep .stop).closeEvent := by
    change Host.Outcome.next s.stop.closeEvent = _
    simp only [State.stop, clearing]
  have abandons : exec .abandon s = .next (s.stopSweep .abandon).closeEvent := by
    change Host.Outcome.next s.abandon.closeEvent = _
    simp only [State.abandon, clearing]
  rw [stops, abandons]
  refine ⟨fun first busy => ?_, fun second => ?_⟩
  · rw [State.stopSweep_of_busy first busy, State.stopSweep_of_busy first busy]
    exact ⟨congrArg _ (State.closeEvent_of_ec law rfl rfl rfl),
      congrArg _ (State.closeEvent_of_ec law rfl rfl rfl)⟩
  · simp [State.stopSweep, second, State.closeEvent_eq_self law]

/-! ## Illegal commands (R159, R174) -/

/-- A word that names no command arrives as an illegal one. -/
theorem State.commandArrival_of_unnamed (s : State) {v : Word} (h : v.toNat = 0 ∨ 6 < v.toNat) :
    s.commandArrival v = s.illegal (v.setWidth 8) := by
  unfold State.commandArrival
  split <;> first | rfl | omega

theorem State.bringup_of_illegal {s : State} (notCold : s.ec.engine ≠ .cold)
    (notFailed : s.ec.engine ≠ .failed) : s.bringup = s.illegal 1 := by
  simp [State.bringup, notCold, notFailed]

theorem State.start_of_illegal {s : State} (h : s.ec.engine ≠ .ready ∨ s.ec.startRead ≠ none
    ∨ ∃ a ∈ s.bi.accesses, a.kind = .tableProfileRead) : s.start = s.illegal 2 := by
  refine if_neg fun legal => ?_
  simp only [Bool.and_eq_true, beq_iff_eq, Option.isNone_iff_eq_none, Bool.not_eq_true',
    State.readsTableProfile, List.any_eq_false] at legal
  obtain ⟨⟨ready, first⟩, none⟩ := legal
  rcases h with h | h | ⟨a, mem, kind⟩
  exacts [h ready, h first, none a mem kind]

theorem State.stop_of_illegal {s : State} (notClearing : s.ec.engine ≠ .clearing)
    (notRunning : s.ec.engine ≠ .running) : s.stop = s.illegal 3 := by
  unfold State.stop
  split <;> first | contradiction | rfl

theorem State.resume_of_illegal {s : State} (h : s.ec.engine ≠ .stalled) :
    s.resume = s.illegal 4 := by
  simp [State.resume, h]

theorem State.abandon_of_illegal {s : State} (notClearing : s.ec.engine ≠ .clearing)
    (notServing : s.ec.engine.serving = false) : s.abandon = s.illegal 5 := by
  unfold State.abandon
  split <;> simp_all [EngineState.serving]

/-- Settles O12: each illegal command is the record of its code. -/
theorem illegalCommandsAreRecorded : Obligations.IllegalCommandsAreRecorded := by
  intro c code s illegal
  have event : exec c s = .next (s.illegal code).closeEvent := by
    rcases illegal with ⟨rfl, rfl, h, h'⟩ | ⟨rfl, rfl, h⟩ | ⟨rfl, rfl, h, h'⟩ | ⟨rfl, rfl, h⟩
      | ⟨rfl, rfl, h, h'⟩ | ⟨v, rfl, h, rfl⟩
    · exact next_closeEvent (State.bringup_of_illegal h h')
    · exact next_closeEvent (State.start_of_illegal h)
    · exact next_closeEvent (State.stop_of_illegal h h')
    · exact next_closeEvent (State.resume_of_illegal h)
    · exact next_closeEvent (State.abandon_of_illegal h h')
    · exact next_closeEvent (s.commandArrival_of_unnamed h)
  have bi : (s.illegal code).bi = s.bi := by simp [State.illegal]
  refine ⟨_, event, ?_, State.sameWindow.close ?_, (State.keepsAccesses_of_eq (by rw [bi])).close,
    (State.addsOnly_of_eq (by rw [bi])).close, State.sameTablePath.close ?_, ?_, fun none => ?_⟩
  case refine_1 => apply EngineControl.ext <;> simp [State.illegal]
  case refine_5 =>
    have recorded : s.illegal code =
        { s with ec := { s.ec with refusedCommand := some code } } :=
        State.statusUpdate_of_none none
    have undue : (s.illegal code).statusDue = false := by
      simp [State.statusDue, State.illegal, none]
    rw [State.closeEvent_eq_self undue, recorded]
    exact ⟨rfl, rfl⟩
  all_goals simp [State.sameWindow, State.sameTablePath, State.illegal]

/-! ## NUDGE (R102) -/

theorem State.mayIssue_of_running {s : State} (h : s.ec.engine = .running) : s.mayIssue = true := by
  simp [State.mayIssue, h]

theorem State.readLink_of_mayIssue {s : State} {n : Anchor} (may : s.mayIssue = true)
    (anchor : s.cu.anchor = some n) : s.readLink =
      ({ s with cu := { s.cu with phase := .link } } : State).issueRead .linkRead n.addr 8 := by
  simp only [State.readLink, anchor, may, if_true]

/-- Settles O13: by the engine's state, and in RUNNING by the fetch phase. -/
theorem nudgeActsByEngineState : Obligations.NudgeActsByEngineState := by
  intro s v law
  have closes : (s.setNudge).closeEvent = s.setNudge := State.closeEvent_of_ec law rfl rfl rfl
  refine ⟨fun running parked n anchor => ?_, fun h => ?_, fun h h' h'' => ?_⟩
  · have nudged : s.nudge = s.unpark.readLink := by simp [State.nudge, running, parked]
    have may : s.unpark.mayIssue = true := State.mayIssue_of_running (by simpa using running)
    rw [State.readLink_of_mayIssue may (by simpa using anchor)] at nudged
    generalize reading : ({ s.unpark with cu := { s.unpark.cu with phase := .link } } : State) = u
      at nudged
    have bi : u.bi = s.bi := by rw [← reading]; simp
    have adds : (u.issueRead .linkRead n.addr 8).bi.accesses
        = s.bi.accesses ++ [⟨s.bi.nextTag, .linkRead, n.addr, 8, [], true⟩] := by
      rw [State.issueRead_accesses, bi]
    refine ⟨_, next_closeEvent nudged, ?_,
      (u.hasIssued_issueRead .linkRead n.addr 8).closeEvent,
      (State.keepsAccesses_append adds).close,
      (State.addsOnly_append adds (by simp)).close, State.sameTablePath.close ?_,
      State.sameWindow.close ?_, ?_⟩
    case refine_1 => subst reading; apply ChainUnit.ext <;> simp
    case refine_4 => subst reading; apply EngineControl.ext <;> simp
    all_goals subst reading; simp [State.sameWindow, State.sameTablePath]
  · have nudged : s.nudge = s.setNudge := by
      unfold State.nudge
      rcases h with ⟨running, notParked⟩ | stalled | stopping <;> simp [*]
    exact (next_closeEvent nudged).trans (congrArg _ closes)
  · have nudged : s.nudge = s := by
      unfold State.nudge
      split <;> first | contradiction | rfl
    exact (next_closeEvent nudged).trans (congrArg _ (State.closeEvent_eq_self law))

end Sys2Proof.Machine
end


section
/-! The ends of the two profile reads (R145, R146, R152), and what the table profile's bytes spell.
-/

namespace Sys2Proof.Machine

/-! ## The memory profile's read (R145, R146) -/

/-- Bring-up that fails, at the end of its event. -/
theorem State.failBringup_closeEvent_ec (s : State) (cause : FailureCause) :
    (s.failBringup cause).closeEvent.ec = { s.ec with
      engine := .failed, failureCause := cause
      status := (s.failBringup cause).closeEvent.ec.status
      intCause := (s.failBringup cause).closeEvent.ec.intCause } := by
  apply EngineControl.ext <;> simp [State.failBringup]

@[simp] theorem State.failBringup_mc (s : State) (cause : FailureCause) :
    (s.failBringup cause).mc = { s.mc with sequencer := .idle, resetHeld := false } := by
  simp [State.failBringup]

@[simp] theorem State.failBringup_intMask (s : State) (cause : FailureCause) :
    (s.failBringup cause).ec.intMask = s.ec.intMask := by
  simp [State.failBringup]

theorem State.raisesCause_failBringup {s u : State} (ec : u.ec = s.ec) (cause : FailureCause) :
    s.raisesCause (u.failBringup cause).closeEvent 8 :=
  State.raisesCause_update causeState (by simp [ec]) (by simp [ec]) (by simp [ec]) (by simp [ec])
    (by simp [ec]) (by simp)

/-- Settles O16: a profile that decodes is taken, any other end fails bring-up. -/
theorem memoryProfileReadEnds : Obligations.MemoryProfileReadEnds := by
  intro s tag a d awaited kind
  have ended : (s.endAccess tag).ec = s.ec := rfl
  have ends := fun act => State.onEnd_of_awaits awaited (kind := (· == .memoryProfileRead))
    (by simp [kind]) act
  refine ⟨fun p decoded => ?taken, fun c cause failure => ?failed⟩
  case taken =>
    have arrived : s.onEnd tag (· == .memoryProfileRead) (fun _ t => t.memoryProfileArrived d) =
        { s.endAccess tag with mc := { s.mc with profile := some p, sequencer := .awaitingReset }
          } := by
      rw [ends, State.memoryProfileArrived, decoded]
      rfl
    refine ⟨_, next_closeEvent arrived, (State.endsAccess_of_eq (by rfl)).close,
      (State.addsOnly_of_endAccess_eq tag (by rfl)).close,
      State.sameWindow.close ⟨rfl, rfl, rfl, rfl⟩, ?_, ?_,
      ?_, ?_, ?_, ?_⟩
    case refine_6 => apply EngineControl.ext <;> simp
    all_goals simp
  case failed =>
    have event : exec c s = .next ((s.endAccess tag).failBringup cause).closeEvent := by
      rcases failure with ⟨rfl, decoded, rfl⟩ | ⟨rfl, rfl⟩
      · refine next_closeEvent ?_
        rw [ends, State.memoryProfileArrived, decoded]
      · exact next_closeEvent (ends _)
    refine ⟨_, event, (State.endsAccess_of_eq (by simp)).close,
      (State.addsOnly_of_endAccess_eq tag (by simp)).close, State.sameWindow.close ?_, ?_, ?_, ?_,
      ?_, ?_,
      ?_, State.raisesCause_failBringup ended cause⟩
    case refine_7 => exact State.failBringup_closeEvent_ec _ cause
    all_goals simp [State.sameWindow]

/-! ## The table profile's bytes (R152, R175) -/

theorem getLsbD_eq_true_iff {w : Nat} (x : BitVec w) (i : Nat) :
    x.getLsbD i = true ↔ x.toNat / 2 ^ i % 2 = 1 := by
  rw [BitVec.getLsbD, Nat.testBit_eq_decide_div_mod_eq, decide_eq_true_iff]

theorem writePolicyOf_eq_some_iff (n : Nat) (policy : WritePolicy) :
    writePolicyOf n = some policy ↔ (n = 0 ∧ policy = .through) ∨ (n = 1 ∧ policy = .back)
      ∨ (n = 2 ∧ policy = .adaptive) := by
  unfold writePolicyOf
  split <;> cases policy <;> simp_all

theorem inRange_iff_and (lo hi x : Nat) : inRange lo hi x = true ↔ lo ≤ x ∧ x ≤ hi := by
  simp [inRange]

theorem writePolicyOf_isSome_iff (n : Nat) : (writePolicyOf n).isSome = true ↔ n ≤ 2 := by
  unfold writePolicyOf
  split <;> simp_all
  omega

/-- No flag beyond the two lowest is set. -/
theorem shiftRight_two_eq_zero_iff (x : Byte) : (x >>> 2 == 0) = true ↔ x.toNat < 4 := by
  rw [beq_iff_eq, ← BitVec.toNat_inj, BitVec.toNat_ushiftRight, Nat.shiftRight_eq_div_pow]
  simp

theorem addr_ne_zero_iff (a : Addr) : (a != 0) = true ↔ a.toNat ≠ 0 := by
  rw [bne_iff_ne, ne_eq, ← BitVec.toNat_inj]
  rfl

/-- The checks on a table profile, field by field (R152). -/
theorem TableProfile.wellFormed_iff (p : TableProfile) (rows : Nat) :
    p.wellFormed (some rows) = true ↔
      10 ≤ p.size ∧ p.size ≤ 24 ∧ 2 ^ p.size * 128 ≤ 8 * rows * 8192 ∧ p.policyCode ≤ 2
        ∧ p.flags.toNat < 4 ∧ p.chainStart.toNat ≠ 0 ∧ p.chainStart.toNat % 64 = 0
        ∧ p.statusAddr.toNat ≠ 0 ∧ p.statusAddr.toNat % 64 = 0 := by
  simp only [TableProfile.wellFormed, Bool.and_eq_true, inRange_iff_and, decide_eq_true_eq,
    writePolicyOf_isSome_iff, addr_ne_zero_iff, aligned64_iff, shiftRight_two_eq_zero_iff,
    Option.getD_some, Config.minSize, Config.maxSize]
  tauto

/-- The fields of the decoded table profile, and its checks. -/
theorem decodeTableProfile_fields (d : Block64) :
    let p := decodeTableProfile d
    p.size = field d 0 1 ∧ p.seed.toNat = field d 8 8 ∧ p.chainStart.toNat = field d 16 8
      ∧ p.statusAddr.toNat = field d 24 8
      ∧ (p.clear = true ↔ field d 2 1 % 2 = 1) ∧ (p.parkEnable = true ↔ field d 2 1 / 2 % 2 = 1)
      ∧ (writePolicyOf p.policyCode = some .through ↔ field d 1 1 = 0)
      ∧ (writePolicyOf p.policyCode = some .back ↔ field d 1 1 = 1)
      ∧ (writePolicyOf p.policyCode = some .adaptive ↔ field d 1 1 = 2) := by
  refine ⟨rfl, rfl, rfl, rfl, ?_, getLsbD_eq_true_iff _ 1, ?_, ?_, ?_⟩
  · refine (getLsbD_eq_true_iff _ 0).trans ?_
    rw [Nat.pow_zero, Nat.div_one]
    rfl
  all_goals simp [writePolicyOf_eq_some_iff, decodeTableProfile]

/-! ## The table profile's read refused (R152) -/

/-- The state in which the arrived profile is judged: no START waits any more. -/
def State.noStart (s : State) : State := { s with ec := { s.ec with startRead := none } }

theorem State.tableProfileArrived_eq (s : State) (d : Block64) :
    s.tableProfileArrived d = s.noStart.judgeProfile (decodeTableProfile d) := rfl

/-- A refusal gives up the START whether or not that has been done before. -/
theorem State.refuseStart_noStart (s : State) (cause : RefusalCause) :
    s.noStart.refuseStart cause = s.refuseStart cause := rfl

/-- Settles O21: the three refusals are one operation. -/
theorem tableProfileReadRefusesStart : Obligations.TableProfileReadRefusesStart := by
  refine ⟨fun s tag a d awaited kind ready c cause refusal => ?refused, fun d => ?decode⟩
  case decode =>
    obtain ⟨size, seed, chain, status, clear, park, through, back, adaptive⟩ :=
      decodeTableProfile_fields d
    exact ⟨size, seed, chain, status, clear, park, through, back, adaptive,
      fun rows => TableProfile.wellFormed_iff _ rows⟩
  case refused =>
    have ended : (s.endAccess tag).ec = s.ec := rfl
    have ends := fun act => State.onEnd_of_awaits awaited (kind := (· == .tableProfileRead))
      (by simp [kind]) act
    have event : exec c s = .next ((s.endAccess tag).refuseStart cause).closeEvent := by
      rcases refusal with ⟨rfl, rfl⟩ | ⟨rfl, formed, rfl⟩ | ⟨rfl, formed, clear, other, rfl⟩
      · exact next_closeEvent (ends _)
      · refine next_closeEvent ?_
        rw [ends, State.tableProfileArrived_eq, State.judgeProfile, if_pos (by simp [formed,
          State.noStart]), State.refuseStart_noStart]
      · refine next_closeEvent ?_
        rw [ends, State.tableProfileArrived_eq, State.judgeProfile, if_neg (by simp [formed,
          State.noStart]), if_neg (by simp [clear]), if_neg (by simpa [State.noStart] using other),
          State.refuseStart_noStart]
    refine ⟨_, event, State.refuseStart_closeEvent_ec _ cause,
      State.raisesCause_refuseStart ended ready cause, State.sameTablePath.close ?_, ?_,
      (State.endsAccess_of_eq (by simp)).close,
      (State.addsOnly_of_endAccess_eq tag (by simp)).close,
      State.sameWindow.close ?_⟩
    all_goals simp [State.sameTablePath, State.sameWindow]

end Sys2Proof.Machine
end


section
/-! The Memory Controller's operations in the words of the statements: what a hand-over does to the
banks and the waits (R119, R120, R126), and the expiries of the bank, column, refresh and device
timers (R117, R118, R126, R128, R129, R132, R147). -/

namespace Sys2Proof.Machine

/-! ## Where only the controller moves -/

namespace State.onlyController

theorem refl (s : State) : s.onlyController s := ⟨s.mc, rfl⟩

theorem trans {s t u : State} (h : s.onlyController t) (h' : t.onlyController u) :
    s.onlyController u := by
  obtain ⟨m, rfl⟩ := h
  obtain ⟨m', rfl⟩ := h'
  exact ⟨m', rfl⟩

theorem of_mc (s : State) (m : MemoryController) : s.onlyController { s with mc := m } := ⟨m, rfl⟩

/-- Only the controller has moved where every other block is as before. -/
theorem of_eq {s t : State} (bi : t.bi = s.bi) (ec : t.ec = s.ec) (cu : t.cu = s.cu)
    (rt : t.rt = s.rt) (tl : t.tl = s.tl) (bc : t.bc = s.bc) (pending : t.pending = s.pending) :
    s.onlyController t :=
  ⟨t.mc, State.ext bi ec cu rt tl bc rfl pending⟩

theorem bi {s t : State} (h : s.onlyController t) : t.bi = s.bi := by
  obtain ⟨m, rfl⟩ := h; rfl

theorem ec {s t : State} (h : s.onlyController t) : t.ec = s.ec := by
  obtain ⟨m, rfl⟩ := h; rfl

theorem cu {s t : State} (h : s.onlyController t) : t.cu = s.cu := by
  obtain ⟨m, rfl⟩ := h; rfl

theorem rt {s t : State} (h : s.onlyController t) : t.rt = s.rt := by
  obtain ⟨m, rfl⟩ := h; rfl

theorem tl {s t : State} (h : s.onlyController t) : t.tl = s.tl := by
  obtain ⟨m, rfl⟩ := h; rfl

theorem bc {s t : State} (h : s.onlyController t) : t.bc = s.bc := by
  obtain ⟨m, rfl⟩ := h; rfl

theorem pending {s t : State} (h : s.onlyController t) : t.pending = s.pending := by
  obtain ⟨m, rfl⟩ := h; rfl

theorem setBank (s : State) (b : BankId) (x : Bank) : s.onlyController (s.setBank b x) :=
  of_mc s _

theorem accept (s : State) (t : Transaction) : s.onlyController (s.accept t) :=
  of_eq (by simp) (by simp) (by simp) (by simp) (by simp) (by simp) (by simp)

theorem handOver (s : State) (t : Transaction) : s.onlyController (s.handOver t) :=
  of_eq (by simp) (by simp) (by simp) (by simp) (by simp) (by simp) (by simp)

theorem retryAccess (s : State) (b : BankId) (a : Access) : s.onlyController (s.retryAccess b a) :=
  of_eq (by simp) (by simp) (by simp) (by simp) (by simp) (by simp) (by simp)

end State.onlyController

/-! ## Banks -/

theorem State.bank_setBank (s : State) (b c : BankId) (x : Bank) :
    (s.setBank b x).bank c = if c = b then x else s.bank c := by
  split
  case isTrue h => rw [h, State.bank_setBank_self]
  case isFalse h => rw [State.bank_setBank_of_ne s x h]

theorem State.setBank_setBank (s : State) (b : BankId) (x y : Bank) :
    (s.setBank b x).setBank b y = s.setBank b y := by
  simp [State.setBank]

theorem State.onlyBank_setBank (s : State) (b : BankId) (x : Bank) : s.onlyBank (s.setBank b x) b :=
  fun _ h => s.bank_setBank_of_ne x h

theorem State.onlyBank.trans {s t u : State} {b : BankId} (h : s.onlyBank t b)
    (h' : t.onlyBank u b) : s.onlyBank u b :=
  fun c e => (h' c e).trans (h c e)

theorem State.onlyBank_of_banks {s t : State} (h : t.mc.banks = s.mc.banks) (b : BankId) :
    s.onlyBank t b :=
  fun c _ => State.bank_of_banks h c

/-- The bank that an access's arrival wakes (R126). -/
theorem State.bank_wakeBank (s : State) (b c : BankId) : (s.wakeBank b).bank c =
    if c = b then { s.bank b with idleClose := .stopped } else s.bank c :=
  s.bank_setBank b c _

/-- The bank that accepts an access (R119, R126). -/
theorem State.bank_accept (s : State) (t : Transaction) (c : BankId) : (s.accept t).bank c =
    if c = t.place.bank then { s.bank c with
      idleClose := .stopped
      queue := (s.bank c).queue ++ [⟨t, 1, 0, s.mc.nextAge, false, .stopped, false⟩] }
    else s.bank c := by
  refine (State.bank_wakeBank _ _ c).trans ?_
  split
  case isTrue h => rw [State.bank_modifyBank_self, h]
  case isFalse h => exact State.bank_modifyBank_of_ne s _ h

theorem State.onlyBank_accept (s : State) (t : Transaction) : s.onlyBank (s.accept t)
    t.place.bank :=
  fun c h => by rw [State.bank_accept, if_neg h]

/-- The bank whose read or write is tried again (R121, R126). -/
theorem State.bank_retryAccess (s : State) (b : BankId) (a : Access) (c : BankId) :
    (s.retryAccess b a).bank c = if c = b then { s.bank b with
      idleClose := .stopped
      queue := { a with issued := false, attempt := a.attempt + 1, alert := .stopped } ::
        (s.bank b).queue.filter fun c => c.age != a.age }
    else s.bank c := by
  refine (State.bank_wakeBank _ _ c).trans ?_
  split
  case isTrue h => rw [State.bank_modifyBank_self]
  case isFalse h => exact State.bank_modifyBank_of_ne s _ h

/-! ## Hand-overs (R119, R120) -/

/-- A hand-over is accepted, or waits. -/
theorem State.handOver_cases (s : State) (t : Transaction) :
    s.handOver t = s.accept t ∨ s.handOver t =
      { s with mc := { s.mc with waits := s.mc.waits ++ [t] } } := by
  unfold State.handOver
  split
  exacts [.inl rfl, .inr rfl]

theorem State.handsOver_handOver (s : State) (t : Transaction) : (s.handOver t).handsOver t := by
  obtain accepted | waits := s.handOver_cases t
  · rw [accepted]
    refine .inr ⟨⟨t, 1, 0, s.mc.nextAge, false, .stopped, false⟩, ?_, rfl, rfl, rfl, rfl⟩
    rw [State.bank_accept, if_pos rfl]
    exact List.mem_append_right _ (List.mem_singleton_self _)
  · rw [waits]
    exact .inl (List.mem_append_right _ (List.mem_singleton_self _))

theorem State.onlyBank_handOver (s : State) (t : Transaction) :
    s.onlyBank (s.handOver t) t.place.bank := by
  obtain accepted | waits := s.handOver_cases t
  · exact accepted ▸ s.onlyBank_accept t
  · exact waits ▸ State.onlyBank_of_banks rfl _

/-- From `s` to `t` accesses are handed over and nothing is lost: what waits or stands in a queue
still does, the bank machines stand still, and beside the controller the clear sweep alone moves. -/
structure State.HandsOn (s t : State) : Prop where
  handsOver : ∀ u, s.handsOver u → t.handsOver u
  state : ∀ c : BankId, (t.bank c).state = (s.bank c).state
  accepting : t.mc.accepting = s.mc.accepting
  bi : t.bi = s.bi
  cu : t.cu = s.cu
  rt : t.rt = s.rt
  tl : t.tl = s.tl
  bc : t.bc = s.bc

namespace State.HandsOn

theorem refl (s : State) : s.HandsOn s := ⟨fun _ => id, fun _ => rfl, rfl, rfl, rfl, rfl, rfl, rfl⟩

theorem trans {s t u : State} (h : s.HandsOn t) (h' : t.HandsOn u) : s.HandsOn u where
  handsOver v := h'.handsOver v ∘ h.handsOver v
  state c := (h'.state c).trans (h.state c)
  accepting := h'.accepting.trans h.accepting
  bi := h'.bi.trans h.bi
  cu := h'.cu.trans h.cu
  rt := h'.rt.trans h.rt
  tl := h'.tl.trans h.tl
  bc := h'.bc.trans h.bc

theorem handOver (s : State) (t : Transaction) : s.HandsOn (s.handOver t) := by
  have only := onlyController.handOver s t
  have frame : (∀ u, s.handsOver u → (s.handOver t).handsOver u)
      ∧ (∀ c : BankId, ((s.handOver t).bank c).state = (s.bank c).state)
      ∧ (s.handOver t).mc.accepting = s.mc.accepting := by
    obtain accepted | waits := s.handOver_cases t
    · rw [accepted]
      refine ⟨fun u there => there.imp id fun ⟨a, mem, facts⟩ => ⟨a, ?queued, facts⟩,
        fun c => ?still, rfl⟩
      case queued =>
        rw [State.bank_accept]
        split
        exacts [List.mem_append_left _ mem, mem]
      case still =>
        rw [State.bank_accept]
        split <;> rfl
    · rw [waits]
      exact ⟨fun u there => there.imp (List.mem_append_left _) id, fun c => rfl, rfl⟩
  exact ⟨frame.1, frame.2.1, frame.2.2, only.bi, only.cu, only.rt, only.tl, only.bc⟩

theorem foldl_handOver (l : List Transaction) (s : State) :
    s.HandsOn (l.foldl State.handOver s) := by
  induction l generalizing s with
  | nil => exact refl s
  | cons t l ih => exact (handOver s t).trans (ih _)

theorem pumpSweep (n : Nat) (s : State) : s.HandsOn (State.pumpSweep n s) := by
  induction n generalizing s with
  | zero => exact refl s
  | succ n ih =>
    rw [State.pumpSweep]
    split
    · refine trans (trans ?_ (handOver _ _)) (ih _)
      exact ⟨fun _ => id, fun _ => rfl, rfl, rfl, rfl, rfl, rfl, rfl⟩
    · exact refl s

end State.HandsOn

/-- What is handed over from a list stands at its bank or waits. -/
theorem State.handsOver_foldl {l : List Transaction} {u : Transaction} (mem : u ∈ l) (s : State) :
    (l.foldl State.handOver s).handsOver u := by
  induction l generalizing s with
  | nil => simp at mem
  | cons t l ih =>
    rw [List.foldl_cons]
    rcases List.mem_cons.mp mem with rfl | mem
    · exact (State.HandsOn.foldl_handOver l _).handsOver u (s.handsOver_handOver u)
    · exact ih mem _

/-! ## The drain (R132) -/

/-- A controller that accepts accesses has no drain to end. -/
theorem State.resumeAccepting_of_accepting {s : State} (h : s.mc.accepting = true) :
    s.resumeAccepting = s := by
  simp [State.resumeAccepting, h]

theorem Bank.atRest_iff (x : Bank) : x.atRest = true ↔ x.state = .closed ∨ x.state =
    .refreshing := by
  simp [Bank.atRest]

/-- The drain has ended: every bank at rest, nothing in flight (R132). -/
theorem State.drained_iff (s : State) : s.drained = true ↔
    ∀ b : BankId, ((s.bank b).state = .closed ∨ (s.bank b).state = .refreshing)
      ∧ (s.bank b).queue = [] := by
  simp [State.drained, List.all_eq_true, mem_allBanks, Bank.atRest_iff]

theorem State.resumeAccepting_of_not_drained {s : State} (h : s.drained = false) :
    s.resumeAccepting = s := by
  simp [State.resumeAccepting, h]

/-- Once the drain has ended the controller accepts again, beginning with the accesses that wait. -/
theorem State.resumeAccepting_of_drained {s : State} (drained : s.drained = true)
    (shut : s.mc.accepting = false) :
    { s with mc := { s.mc with accepting := true, waits := [] } }.HandsOn s.resumeAccepting
      ∧ ∀ u ∈ s.mc.waits, s.resumeAccepting.handsOver u := by
  have resumed : s.resumeAccepting = State.pumpSweep Config.sweepBound
      (s.mc.waits.foldl State.handOver
      { s with mc := { s.mc with accepting := true, waits := [] } }) := by
    simp [State.resumeAccepting, shut, drained, State.continueSweep]
  rw [resumed]
  exact ⟨(State.HandsOn.foldl_handOver _ _).trans (State.HandsOn.pumpSweep _ _),
    fun u mem => (State.HandsOn.pumpSweep _ _).handsOver u (State.handsOver_foldl mem _)⟩

/-! ## The bank and column timers (R117, R118, R126) -/

/-- An OPEN bank falls idle exactly when it has no UNISSUED access (R126). -/
theorem State.fallIdle_of_opened {s : State} {b : BankId} {r : Nat}
    (opened : (s.bank b).state = .opened r) : s.fallIdle b =
      if (s.bank b).unissued = [] then
        s.modifyBank b fun x => { x with idleClose := s.timer MemoryProfile.idleClose }
      else s := by
  simp only [State.fallIdle, opened, List.isEmpty_iff]

theorem State.fallIdle_setBank (s : State) (b : BankId) (x : Bank) {r : Nat}
    (opened : x.state = .opened r) : (s.setBank b x).fallIdle b = s.setBank b { x with
      idleClose := if x.unissued = [] then .running (s.mc.profile.map MemoryProfile.idleClose)
        else x.idleClose } := by
  rw [State.fallIdle_of_opened (r := r) (by rw [State.bank_setBank_self, opened]),
    State.bank_setBank_self]
  by_cases idle : x.unissued = []
  · rw [if_pos idle, if_pos idle, State.modifyBank, State.setBank_setBank, State.bank_setBank_self]
    rfl
  · rw [if_neg idle, if_neg idle]

/-- The state in which CLOSE_WAIT has expired, before the controller may accept again. -/
theorem State.closeWaitExpired_of_closing {s : State} {b : BankId}
    (closing : (s.bank b).state = .closing) (running : (s.bank b).closeWait.isRunning = true) :
    s.closeWaitExpired b = (s.setBank b { s.bank b with
      state := .closed, closeWait := .stopped }).resumeAccepting := by
  simp only [State.closeWaitExpired, running, if_true, State.modifyBank, closing, beq_self_eq_true]

/-- Settles O43: timer by timer; in the drain, by whether every other bank is at rest. -/
theorem bankAndColumnTimersExpire : Obligations.BankAndColumnTimersExpire := by
  intro s b g
  refine ⟨fun r opening running => ?openWait, rfl, fun closing running accepting => ?closeWait,
    fun closing running shut rest => ?drainEnds, fun closing running shut busy => ?drainGoesOn,
    fun running => ?idleClose, rfl, rfl, rfl⟩
  case openWait =>
    refine congrArg Host.Outcome.next ?_
    simp only [State.openWaitExpired, running, if_true, opening, State.modifyBank,
      State.setBank_setBank, State.bank_setBank_self]
    exact State.fallIdle_setBank s b _ rfl
  case closeWait =>
    refine congrArg Host.Outcome.next ((State.closeWaitExpired_of_closing closing running).trans ?_)
    exact State.resumeAccepting_of_accepting accepting
  case drainEnds =>
    have drained : (s.setBank b { s.bank b with state := .closed, closeWait := .stopped }).drained
        = true := by
      refine (State.drained_iff _).mpr fun c => ?_
      rw [State.bank_setBank]
      split
      case isTrue h => exact ⟨.inl rfl, (rest b).1⟩
      case isFalse h => exact ⟨(rest c).2 h, (rest c).1⟩
    obtain ⟨hands, waits⟩ := State.resumeAccepting_of_drained drained shut
    refine ⟨_, congrArg Host.Outcome.next (State.closeWaitExpired_of_closing closing running),
      hands.accepting, waits, hands.bi, hands.cu, hands.rt, hands.tl, hands.bc, fun c => ?_⟩
    refine (hands.state c).trans ?_
    have same : State.bank
        { s.setBank b { s.bank b with state := .closed, closeWait := .stopped } with
        mc := { (s.setBank b { s.bank b with state := .closed, closeWait := .stopped }).mc with
          accepting := true, waits := [] } } c
        = (s.setBank b { s.bank b with state := .closed, closeWait := .stopped }).bank c := rfl
    rw [same, State.bank_setBank]
    split <;> rfl
  case drainGoesOn =>
    have undrained : (s.setBank b { s.bank b with state := .closed, closeWait := .stopped }).drained
        = false := by
      rw [← Bool.not_eq_true, State.drained_iff]
      intro rest
      obtain ⟨c, queue | ⟨other, notClosed, notRefreshing⟩⟩ := busy
      · have := (rest c).2
        rw [State.queue_setBank] at this
        split at this
        case isTrue h => exact queue (h ▸ this)
        case isFalse => exact queue this
      · have := (rest c).1
        rw [State.bank_setBank_of_ne s _ other] at this
        exact this.elim notClosed notRefreshing
    refine congrArg Host.Outcome.next ((State.closeWaitExpired_of_closing closing running).trans ?_)
    exact State.resumeAccepting_of_not_drained undrained
  case idleClose =>
    refine ⟨s.idleCloseExpired b, rfl, ?_, ?_, ?_, ?_⟩
    all_goals simp only [State.idleCloseExpired, running, if_true]
    · exact .of_mc s _
    · exact s.onlyBank_setBank b _
    · exact s.bank_setBank_self b _
    · rfl

/-! ## The refresh timers (R128, R129) -/

/-- Settles O44: by the owed count. -/
theorem refreshTimersKeepTheAccount : Obligations.RefreshTimersKeepTheAccount := by
  intro s
  refine ⟨fun running few => ?_, fun running many => ?_, fun running accepting => ?_⟩
  · refine congrArg Host.Outcome.next ?_
    rw [State.refreshPeriodExpired, if_pos running]
    exact if_pos few
  · refine congrArg Host.Outcome.next ?_
    rw [State.refreshPeriodExpired, if_pos running]
    exact if_neg many.not_gt
  · have expired : s.refreshWaitExpired = { s with mc := { s.mc with
        banks := s.mc.banks.map Bank.endRefresh
        refreshWait := .stopped
        owed := s.mc.owed - 1
        committed := Config.owedForced ≤ s.mc.owed - 1 } } := by
      simp only [State.refreshWaitExpired, running, if_true]
      exact State.resumeAccepting_of_accepting accepting
    refine ⟨_, congrArg Host.Outcome.next expired, .of_mc s _, rfl, rfl, rfl, rfl, fun b => ?_⟩
    refine (Vector.getElem_map Bank.endRefresh b.isLt).trans ?_
    simp only [Bank.endRefresh, beq_iff_eq]
    rfl

/-! ## The device phases (R147) -/

/-- Nothing is in flight: no read outstanding, every queue empty (R147). -/
theorem State.nothingInFlight_iff (s : State) :
    s.nothingInFlight = true ↔ s.mc.reads = [] ∧ ∀ b : BankId, (s.bank b).queue = [] := by
  simp [State.nothingInFlight, List.all_eq_true, mem_allBanks]

theorem State.bank_beginDeviceReset (s : State) (b : BankId) :
    s.beginDeviceReset.bank b = Bank.empty :=
  Vector.getElem_replicate b.isLt

theorem State.continueSweep_of_idle {s : State} (h : s.ec.sweep.phase ≠ .writing) :
    s.continueSweep = s := by
  have : Config.sweepBound = 128 + 1 := rfl
  simp [State.continueSweep, this, State.pumpSweep, h]

/-- With every bank empty and nothing waiting the controller accepts accesses, and nothing else
moves. -/
theorem State.resumeAccepting_beginDeviceReset {s : State} (waits : s.mc.waits = [])
    (sweep : s.ec.sweep.phase = .idle) : s.beginDeviceReset.resumeAccepting =
      { s.beginDeviceReset with mc := { s.beginDeviceReset.mc with accepting := true } } := by
  cases accepting : s.mc.accepting with
  | true =>
    have accepting' : s.beginDeviceReset.mc.accepting = true := accepting
    rw [State.resumeAccepting_of_accepting accepting', ← accepting']
  | false =>
    have drained : s.beginDeviceReset.drained = true := (State.drained_iff _).mpr fun b => by
      rw [State.bank_beginDeviceReset]
      exact ⟨.inl rfl, rfl⟩
    have shut : s.beginDeviceReset.mc.accepting = false := accepting
    have none : s.beginDeviceReset.mc.waits = [] := waits
    simp only [State.resumeAccepting, shut, drained, none, Bool.not_false, Bool.and_self, if_true,
      List.foldl_nil]
    rw [State.continueSweep_of_idle (by simp [sweep]), ← none]

/-- Settles O18: phase by phase. -/
theorem devicePhasesFollowInOrder : Obligations.DevicePhasesFollowInOrder := by
  intro s p profile
  have timer : ∀ f : MemoryProfile → Nat, s.timer f = .running (some (f p)) := fun f => by
    rw [State.timer, profile]; rfl
  refine ⟨fun waiting busy => ?busy, fun waiting reads queues waits sweep => ?begins,
    fun holding running => ?released, fun i mode running => ?modeSet, fun mode running => ?pattern⟩
  case busy =>
    have inFlight : s.nothingInFlight = false := by
      rw [← Bool.not_eq_true, State.nothingInFlight_iff]
      rintro ⟨reads, queues⟩
      exact busy.elim (· reads) fun ⟨b, queue⟩ => queue (queues b)
    refine congrArg Host.Outcome.next ?_
    simp [State.deviceResetPhase, inFlight]
  case begins =>
    have quiet := (State.nothingInFlight_iff s).mpr ⟨reads, queues⟩
    refine congrArg Host.Outcome.next ?_
    simp only [State.deviceResetPhase, waiting, quiet, beq_self_eq_true, Bool.and_self, if_true]
    rw [State.resumeAccepting_beginDeviceReset waits sweep, State.beginDeviceReset, timer]
  case released =>
    refine congrArg Host.Outcome.next ?_
    simp only [State.resetHoldExpired, running, holding, beq_self_eq_true, if_true,
      State.endDeviceReset]
    exact congrArg (fun t => ({ s with mc := { s.mc with
      resetHold := .stopped, resetHeld := false, modeGap := t, sequencer := .mode 0 } } : State))
      (timer _)
  case modeSet =>
    refine congrArg Host.Outcome.next ?_
    have word : (s.mc.profile.map fun q => q.modeWords[i]).getD 0 = p.modeWords[i] := by
      rw [profile]; rfl
    simp only [State.modeGapExpired, running, mode, if_true, dif_pos i.isLt, State.modeSet,
      State.drive]
    exact congrArg₂ (fun v t => ({ s with mc := { s.mc with
      port := some (.modeSet i v), modeGap := t, sequencer := .mode (i + 1) } } : State)) word
      (timer _)
  case pattern =>
    refine congrArg Host.Outcome.next ?_
    simp only [State.modeGapExpired, running, mode, if_true]
    rfl

end Sys2Proof.Machine
end


section
/-! The ends of device accesses as they leave their queues (R115, R119, R120, R132, R135), and the
lane check and the size probe of bring-up (R148, R149, R150). -/

namespace Sys2Proof.Machine

/-! ## An access leaves its queue -/

/-- An event without consequences ends with its status write. -/
theorem outcomeOf_settle_nil (u : State) : outcomeOf (settle (u, [])) = .next u.closeEvent := by
  rw [settle_nil, outcomeOf_some]

/-- The state in which the first outstanding read's data has arrived. -/
def State.takeRead (s : State) (rest : List OutstandingRead) : State :=
  { s with mc := { s.mc with reads := rest } }

/-- The state in which the access of this age has left its queue and no other has taken its place.
-/
def State.dropAccess (s : State) (b : BankId) (age : Nat) : State :=
  s.modifyBank b fun x => { x with queue := x.queue.filter fun a => a.age != age }

theorem State.bank_dropAccess (s : State) (b : BankId) (age : Nat) (c : BankId) :
    (s.dropAccess b age).bank c = if c = b then
      { s.bank b with queue := (s.bank b).queue.filter fun a => a.age != age } else s.bank c :=
  s.bank_setBank b c _

theorem State.queue_dropAccess_self (s : State) (b : BankId) (age : Nat) :
    ((s.dropAccess b age).bank b).queue = (s.bank b).queue.filter fun a => a.age != age := by
  rw [State.bank_dropAccess, if_pos rfl]

theorem State.onlyBank_dropAccess (s : State) (b : BankId) (age : Nat) :
    s.onlyBank (s.dropAccess b age) b :=
  fun c h => by rw [State.bank_dropAccess, if_neg h]

theorem State.onlyController.dropAccess (s : State) (b : BankId) (age : Nat) :
    s.onlyController (s.dropAccess b age) :=
  State.onlyController.setBank s b _

theorem State.onlyController.takeRead (s : State) (rest : List OutstandingRead) :
    s.onlyController (s.takeRead rest) :=
  State.onlyController.of_mc s _

/-- Where no access waits for the bank the freed place stays free (R120). -/
theorem State.leaveQueue_of_none {s : State} {b : BankId}
    (none : ∀ v ∈ s.mc.waits, v.place.bank ≠ b) (age : Nat) :
    s.leaveQueue b age = s.dropAccess b age := by
  have waiting : (s.dropAccess b age).mc.waits.find? (fun t => t.place.bank == b) = .none := by
    simpa [List.find?_eq_none, State.dropAccess] using none
  change (s.dropAccess b age).acceptWaiting b = _
  simp only [State.acceptWaiting, waiting, ite_self]

theorem State.age_of_queued {s : State} {b : BankId} {age : Nat} {a : Access}
    (queued : s.queued b age = some a) : a.age = age := by
  simpa using List.find?_some queued

/-- The state an access's end leaves before its requester acts (R115, R119). -/
def State.ended (s : State) (rest : List OutstandingRead) (b : BankId) (age : Nat) : State :=
  (s.takeRead rest).dropAccess b age

theorem State.onlyController.ended (s : State) (rest : List OutstandingRead) (b : BankId)
    (age : Nat) : s.onlyController (s.ended rest b age) :=
  (State.onlyController.takeRead s rest).trans (State.onlyController.dropAccess _ b age)

/-- A read data arrival matched to an access, in a controller that is not draining (R115). -/
theorem State.dataArrived_of_access {s : State} {b : BankId} {age : Nat}
    {rest : List OutstandingRead} {a : Access} (reads : s.mc.reads = .access b age :: rest)
    (queued : s.queued b age = some a) (d : Block128) :
    s.dataArrived d = (s.takeRead rest).readArrived b a (Image.ofBits d) := by
  have queued' : (s.takeRead rest).queued b age = some a := queued
  simp only [State.dataArrived, reads]
  change (match (s.takeRead rest).queued b age with
    | some a => (s.takeRead rest).readArrived b a (Image.ofBits d)
    | none => (s.takeRead rest, [])) = _
  rw [queued']

/-- Good data, where no access waits for the bank: the access leaves its queue and is delivered. -/
theorem State.dataArrived_of_valid {s : State} {b : BankId} {age : Nat}
    {rest : List OutstandingRead} {a : Access} {d : Block128}
    (reads : s.mc.reads = .access b age :: rest) (queued : s.queued b age = some a)
    (live : a.orphan = false) (valid : (Image.ofBits d).valid = true)
    (waits : ∀ v ∈ s.mc.waits, v.place.bank ≠ b) :
    s.dataArrived d = (s.ended rest b age).readDelivered a.body.requester (Image.ofBits d) := by
  rw [State.dataArrived_of_access reads queued, State.readArrived, if_neg (by simp [live]),
    if_pos valid, State.age_of_queued queued,
    State.leaveQueue_of_none (s := s.takeRead rest) waits]
  rfl

/-- The completion of the write whose window closes, where no access waits for the bank. -/
theorem State.windowClosed_of_live {s : State} {b : BankId} {age : Nat} {a : Access}
    (window : s.openWindow age = some (b, a)) (live : a.orphan = false)
    (waits : ∀ v ∈ s.mc.waits, v.place.bank ≠ b) :
    s.windowClosed age = (s.dropAccess b age).writeDelivered a.body.requester := by
  simp only [State.windowClosed, window, live, Bool.false_eq_true, if_false,
    State.leaveQueue_of_none waits]

/-- In a controller that accepts accesses no drain ends with the event. -/
theorem thenResume_of_accepting {p : State × List Task} (h : p.1.mc.accepting = true) :
    thenResume p = p := by
  rw [thenResume, State.resumeAccepting_of_accepting h]

/-! ## The lane check (R148) -/

theorem getLsbD_one_shiftLeft {j k : Nat} (h : k < 8) :
    (1#8 <<< j).getLsbD k = decide (j = k) := by
  rw [BitVec.getLsbD_shiftLeft, BitVec.getLsbD_one]
  by_cases e : j = k
  · simp [e, h]
  · simp [e]
    omega

/-- A lane is marked exactly when it failed before or fails now. -/
theorem getLsbD_foldl_laneFails (i : Nat) (d : Block128) {k : Nat} (h : k < 8) (l : List Nat)
    (m : Byte) :
    (l.foldl (fun m k => if laneFails i d k then m ||| (1#8 <<< k) else m) m).getLsbD k =
      (m.getLsbD k || (decide (k ∈ l) && laneFails i d k)) := by
  induction l generalizing m with
  | nil => simp
  | cons j l ih =>
    rw [List.foldl_cons, ih]
    by_cases e : j = k
    · subst e
      cases fails : laneFails i d j <;> simp [getLsbD_one_shiftLeft h]
    · have e' : ¬k = j := fun h => e h.symm
      cases fails : laneFails i d j <;> simp [getLsbD_one_shiftLeft h, e, e']

theorem getLsbD_laneFaults (i : Nat) (d : Block128) {k : Nat} (h : k < 8) :
    (laneFaults i d).getLsbD k = laneFails i d k := by
  rw [laneFaults, getLsbD_foldl_laneFails i d h]
  simp [h]

theorem laneFails_iff (i : Nat) (d : Block128) (k : Nat) : laneFails i d k = true ↔
    ∃ j < 16, d.extractLsb' (8 * (8 * j + k)) 8 ≠ expectedByte i j k := by
  simp [laneFails, List.any_eq_true]

theorem State.patternArrived_of_lt {s : State} {i : Nat} (h : i < 3) (d : Block128) :
    s.patternArrived i d = ({ s with mc := { s.mc with
      laneFaults := s.mc.laneFaults ||| laneFaults i d } } : State).patternRead (i + 1) :=
  if_pos h

/-- The lanes that are marked once a pattern's data has been judged. -/
def State.markLanes (s : State) (i : Nat) (d : Block128) : State :=
  { s with mc := { s.mc with laneFaults := s.mc.laneFaults ||| laneFaults i d } }

theorem State.patternArrived_eq (s : State) (i : Nat) (d : Block128) : s.patternArrived i d =
    if i < 3 then (s.markLanes i d).patternRead (i + 1)
    else if (s.markLanes i d).mc.laneFaults = 0 then (s.markLanes i d).handProbe 0 []
    else (s.markLanes i d).failBringup .lanes := rfl

/-- The direction of an access of the probe: the write of its marker, or a read (R149). -/
def probeDirection : Option Marker → Direction
  | some m => .write m.image
  | none => .read

theorem State.handProbe_eq {s : State} {i row : Nat} {marker : Option Marker}
    (access : probeAccesses[i]? = some (row, marker)) (found : List (Option Marker)) :
    s.handProbe i found = (s.setSequencer (.probe i found)).handOver
      ⟨.direct 0 row 0, probeDirection marker, .bringup⟩ := by
  simp only [State.handProbe, access]
  cases marker <;> rfl

/-- What a hand-over leaves of the controller: queues, waits and the next age alone may change. -/
theorem State.handOver_mc (s : State) (t : Transaction) : (s.handOver t).mc = { s.mc with
    banks := (s.handOver t).mc.banks
    idleCandidates := (s.handOver t).mc.idleCandidates
    waits := (s.handOver t).mc.waits
    nextAge := (s.handOver t).mc.nextAge } := by
  obtain accepted | waits := s.handOver_cases t
  · rw [accepted]; rfl
  · rw [waits]

@[simp] theorem State.handOver_mc_accepting (s : State) (t : Transaction) :
    (s.handOver t).mc.accepting = s.mc.accepting := (State.HandsOn.handOver s t).accepting

@[simp] theorem State.handOver_mc_sequencer (s : State) (t : Transaction) :
    (s.handOver t).mc.sequencer = s.mc.sequencer := by rw [State.handOver_mc]

@[simp] theorem State.handOver_mc_reads (s : State) (t : Transaction) :
    (s.handOver t).mc.reads = s.mc.reads := by rw [State.handOver_mc]

@[simp] theorem State.handOver_mc_laneFaults (s : State) (t : Transaction) :
    (s.handOver t).mc.laneFaults = s.mc.laneFaults := by rw [State.handOver_mc]

theorem State.handsOver_of_mc {s t : State} {u : Transaction} (h : s.handsOver u)
    (mc : t.mc = s.mc) : t.handsOver u := by
  simpa only [State.handsOver, State.bank, mc] using h

theorem State.handsOver.close {t : State} {u : Transaction} (h : t.handsOver u) :
    t.closeEvent.handsOver u :=
  State.handsOver_of_mc h t.closeEvent_mc

/-- The event of a pattern's data, in a controller that accepts accesses (R148). -/
theorem exec_pattern {s : State} {i : Nat} {rest : List OutstandingRead}
    (reads : s.mc.reads = .pattern i false :: rest) (d : Block128)
    (accepting : ((s.takeRead rest).patternArrived i d).mc.accepting = true) :
    exec (.readDataArrival d) s = .next ((s.takeRead rest).patternArrived i d).closeEvent := by
  have arrived : s.dataArrived d = ((s.takeRead rest).patternArrived i d, []) := by
    simp only [State.dataArrived, reads]
    rfl
  change outcomeOf (settle (thenResume (s.dataArrived d))) = _
  rw [arrived, thenResume_of_accepting accepting, outcomeOf_settle_nil]

theorem State.patternArrived_accepting (s : State) (i : Nat) (d : Block128) :
    (s.patternArrived i d).mc.accepting = s.mc.accepting := by
  rw [State.patternArrived_eq]
  split
  · rfl
  · split
    · rw [State.handProbe_eq (i := 0) rfl]
      simp [State.markLanes]
    · simp [State.markLanes]

theorem expectedByte_three (j k : Nat) :
    expectedByte 3 j k = ((if j % 8 = k then 1 <<< k else 0 : Nat) : Byte) := by
  change (if j % 8 = k then 1#8 <<< k else 0) = _
  split
  · apply BitVec.eq_of_toNat_eq
    simp
  · rfl

/-- Settles O19: by the pattern's index and, after the fourth, by whether a lane is marked. -/
theorem laneCheckMarksFailingLanes : Obligations.LaneCheckMarksFailingLanes := by
  refine ⟨fun s i rest d reads accepting => ?arrived, fun j k =>
    ⟨rfl, rfl, rfl, expectedByte_three j k⟩⟩
  have event := exec_pattern reads d ((State.patternArrived_accepting _ i d).trans accepting)
  have marks : ∀ k < 8, (s.mc.laneFaults ||| laneFaults i d).getLsbD k = true ↔
      (s.mc.laneFaults.getLsbD k = true
        ∨ ∃ j < 16, d.extractLsb' (8 * (8 * j + k)) 8 ≠ expectedByte i j k) := by
    intro k hk
    rw [BitVec.getLsbD_or, getLsbD_laneFaults i d hk, Bool.or_eq_true, laneFails_iff]
  have lanes : ((s.takeRead rest).patternArrived i d).mc.laneFaults
      = s.mc.laneFaults ||| laneFaults i d := by
    rw [State.patternArrived_eq]
    split
    · rfl
    · split
      · rw [State.handProbe_eq (i := 0) rfl]
        simp [State.markLanes, State.takeRead]
      · simp [State.markLanes, State.takeRead]
  have blocks : ((s.takeRead rest).patternArrived i d).bi = s.bi
      ∧ ((s.takeRead rest).patternArrived i d).cu = s.cu
      ∧ ((s.takeRead rest).patternArrived i d).rt = s.rt
      ∧ ((s.takeRead rest).patternArrived i d).tl = s.tl
      ∧ ((s.takeRead rest).patternArrived i d).bc = s.bc
      ∧ ((s.takeRead rest).patternArrived i d).ec.intMask = s.ec.intMask
      ∧ ((s.takeRead rest).patternArrived i d).pending = s.pending := by
    rw [State.patternArrived_eq]
    split
    · exact ⟨rfl, rfl, rfl, rfl, rfl, rfl, rfl⟩
    · split <;> simp [State.markLanes, State.takeRead]
  obtain ⟨bi, cu, rt, tl, bc, intMask, pending⟩ := blocks
  refine ⟨_, event, State.sameWindow.close ⟨by rw [bi], by rw [bi], intMask, pending⟩,
    (State.keepsAccesses_of_eq (by rw [bi])).close, (State.addsOnly_of_eq (by rw [bi])).close,
    by simpa using cu, by simpa using rt, by simpa using tl, by simpa using bc, ?_, fun early => ?_,
    fun late faults => ?_, fun late clean => ?_⟩
  · rw [State.closeEvent_mc, lanes]
    exact marks
  · rw [State.closeEvent_mc, State.patternArrived_eq, if_pos early]
    refine ⟨rfl, ?_⟩
    apply EngineControl.ext <;> simp [State.markLanes, State.takeRead]
  · rw [State.closeEvent_mc, lanes] at faults
    have failed : (s.takeRead rest).patternArrived i d
        = ((s.takeRead rest).markLanes i d).failBringup .lanes := by
      rw [State.patternArrived_eq, if_neg (Nat.not_lt.mpr late)]
      exact if_neg faults
    have same : ((s.takeRead rest).markLanes i d).ec = s.ec := rfl
    rw [failed]
    refine ⟨?_, State.failBringup_closeEvent_ec _ .lanes, State.raisesCause_failBringup same .lanes⟩
    simp [State.markLanes, State.takeRead]
  · rw [State.closeEvent_mc, lanes] at clean
    have probes : (s.takeRead rest).patternArrived i d
        = ((s.takeRead rest).markLanes i d).handProbe 0 [] := by
      rw [State.patternArrived_eq, if_neg (Nat.not_lt.mpr late)]
      exact if_pos clean
    rw [probes, State.handProbe_eq (i := 0) rfl]
    refine ⟨?_, ?_, (State.handsOver_handOver _ _).close, ?_⟩
    · simp [State.setSequencer]
    · simp [State.markLanes, State.takeRead]
    · apply EngineControl.ext <;> simp [State.markLanes, State.takeRead]

end Sys2Proof.Machine
end


section
/-! The size probe (R149) and the last phase of bring-up (R150). -/

namespace Sys2Proof.Machine

/-! ## The markers (R149) -/

theorem Marker.image_eq (m : Marker) : m.image = ⟨1, 0, 0, 0,
    #v[⟨match m with | .m14 => 15 | .m13 => 14 | .m12 => 13 | .m0 => 1, 0⟩, ⟨0, 0⟩, ⟨0, 0⟩,
      ⟨0, 0⟩, ⟨0, 0⟩]⟩ := by
  cases m <;> rfl

/-- The check word aside, a marker is its key: two markers never share an image. -/
theorem Marker.sealed_injective {m n : Marker} (h : m.image.sealed = n.image.sealed) : m = n := by
  have slots : m.image.slots = n.image.slots := congrArg Image.slots (a₁ := m.image.sealed)
      (a₂ := n.image.sealed) h
  rw [Marker.image_eq, Marker.image_eq] at slots
  revert slots
  cases m <;> cases n <;> decide

theorem Marker.mem_all (m : Marker) : m ∈ [Marker.m14, .m13, .m12, .m0] := by
  cases m <;> decide

theorem Marker.ofImage_eq_some_iff (im : Image) (m : Marker) :
    Marker.ofImage im = some m ↔ im = m.image.sealed := by
  constructor
  · intro named
    simpa using List.find?_some named
  · rintro rfl
    cases found : Marker.ofImage m.image.sealed with
    | none =>
      have := List.find?_eq_none.mp found m m.mem_all
      simp at this
    | some n =>
      have : m.image.sealed = n.image.sealed := by simpa using List.find?_some found
      rw [Marker.sealed_injective this]

theorem detectedRows_eq_some_iff (l : List (Option Marker)) (n : Nat) : detectedRows l = some n ↔
    (l = [some .m0, some .m0, some .m0] ∧ n = 4096)
      ∨ (l = [some .m12, some .m0, some .m0] ∧ n = 8192)
      ∨ (l = [some .m12, some .m13, some .m0] ∧ n = 16384)
      ∨ (l = [some .m12, some .m13, some .m14] ∧ n = 32768) := by
  unfold detectedRows
  split <;> simp_all [eq_comm]

/-! ## The end of the probe (R149, R150) -/

theorem State.probeRead_last {s : State} {found : List (Option Marker)}
    (last : s.mc.sequencer = .probe 6 found) (im : Image) :
    s.probeRead im = s.judgeProbe (found ++ [Marker.ofImage im]) := by
  simp only [State.probeRead, last, if_true]

theorem State.probeRead_next {s : State} {i : Nat} {found : List (Option Marker)}
    (probe : s.mc.sequencer = .probe i found) (h : i < 6) (im : Image) :
    s.probeRead im = s.handProbe (i + 1) (found ++ [Marker.ofImage im]) := by
  simp only [State.probeRead, probe, if_neg h.ne]

theorem State.probeWritten_next {s : State} {i : Nat} {found : List (Option Marker)}
    (probe : s.mc.sequencer = .probe i found) : s.probeWritten = s.handProbe (i + 1) found := by
  simp only [State.probeWritten, probe]

theorem State.raisesCause_finishBringup {s u : State} (ec : u.ec = s.ec) (rows : Nat) :
    s.raisesCause (u.finishBringup rows).closeEvent 8 :=
  State.raisesCause_update causeState (by simp [ec]) (by simp [ec]) (by simp [ec]) (by simp [ec])
    (by simp [ec]) (by simp)

theorem State.finishBringup_closeEvent_ec (s : State) (rows : Nat) :
    (s.finishBringup rows).closeEvent.ec = { s.ec with
      engine := .ready, identity := none, counters := .zero
      status := (s.finishBringup rows).closeEvent.ec.status
      intCause := (s.finishBringup rows).closeEvent.ec.intCause } := by
  apply EngineControl.ext <;> simp [State.finishBringup]

theorem State.finishBringup_mc (s : State) (rows : Nat) : (s.finishBringup rows).mc = { s.mc with
    rows := some rows, owed := 0, committed := false, refreshRunning := true,
    refreshPeriod := .running (s.mc.profile.map MemoryProfile.refreshPeriod)
    sequencer := .idle } := by
  simp [State.finishBringup, State.timer]

/-- The results judged: the rows found, or the failure (R149). -/
theorem State.judgeProbe_cases (s : State) (found : List (Option Marker)) :
    (∃ rows, detectedRows found = some rows ∧ s.judgeProbe found = s.finishBringup rows)
      ∨ detectedRows found = none ∧ s.judgeProbe found = s.failBringup .size := by
  unfold State.judgeProbe
  cases detectedRows found with
  | none => exact .inr ⟨rfl, rfl⟩
  | some rows => exact .inl ⟨rows, rfl, rfl⟩

/-- The event of an access of bring-up that ends, in a controller that accepts accesses. -/
theorem outcomeOf_delivered {u : State} (accepting : u.mc.accepting = true) :
    outcomeOf (settle (thenResume (u, []))) = .next u.closeEvent := by
  rw [thenResume_of_accepting accepting, outcomeOf_settle_nil]

/-- The read's data that ends an access of bring-up, as an event (R149). -/
theorem exec_probeRead {s : State} {b : BankId} {age : Nat} {rest : List OutstandingRead}
    {a : Access} {d : Block128} (reads : s.mc.reads = .access b age :: rest)
    (queued : s.queued b age = some a) (live : a.orphan = false)
    (bringup : a.body.requester = .bringup) (valid : (Image.ofBits d).valid = true)
    (waits : s.mc.waits = [])
    (accepting : ((s.ended rest b age).probeRead (Image.ofBits d)).mc.accepting = true) :
    exec (.readDataArrival d) s =
      .next ((s.ended rest b age).probeRead (Image.ofBits d)).closeEvent := by
  change outcomeOf (settle (thenResume (s.dataArrived d))) = _
  rw [State.dataArrived_of_valid reads queued live valid (by simp [waits]), bringup]
  exact outcomeOf_delivered accepting

/-- The window that closes on a write of bring-up, as an event (R149). -/
theorem exec_probeWritten {s : State} {b : BankId} {age : Nat} {a : Access}
    (window : s.openWindow age = some (b, a)) (live : a.orphan = false)
    (bringup : a.body.requester = .bringup) (waits : s.mc.waits = [])
    (accepting : (s.dropAccess b age).probeWritten.mc.accepting = true) :
    exec (.alertWaitExpiry age) s = .next (s.dropAccess b age).probeWritten.closeEvent := by
  change outcomeOf (settle (thenResume (s.windowClosed age))) = _
  rw [State.windowClosed_of_live window live (by simp [waits]), bringup]
  exact outcomeOf_delivered accepting

/-- The next access of the probe in a state in which only the controller has moved. -/
theorem probe_goes_on {s v : State} (only : s.onlyController v) {c : Instr} {j row : Nat}
    {marker : Option Marker} {found : List (Option Marker)}
    (access : probeAccesses[j]? = some (row, marker))
    (event : exec c s = .next (v.handProbe j found).closeEvent) :
    ∃ t, exec c s = .next t ∧ t.mc.sequencer = .probe j found
      ∧ t.handsOver ⟨.direct 0 row 0, probeDirection marker, .bringup⟩
      ∧ t.ec = { s.ec with status := t.ec.status } ∧ s.keepsAccesses t
      ∧ s.addsOnly t (fun _ => false) ∧ t.cu = s.cu ∧ t.rt = s.rt ∧ t.tl = s.tl ∧ t.bc = s.bc
      ∧ s.sameWindow t := by
  rw [State.handProbe_eq access] at event
  have moved : s.onlyController ((v.setSequencer (.probe j found)).handOver
      ⟨.direct 0 row 0, probeDirection marker, .bringup⟩) :=
    (only.trans (.of_mc v _)).trans (.handOver _ _)
  refine ⟨_, event, ?_, (State.handsOver_handOver _ _).close, ?_,
    (State.keepsAccesses_of_eq (by rw [moved.bi])).close,
    (State.addsOnly_of_eq (by rw [moved.bi])).close,
    ?_, ?_, ?_, ?_, State.sameWindow.close ⟨by rw [moved.bi], by rw [moved.bi], by rw [moved.ec],
      moved.pending⟩⟩
  · rw [State.closeEvent_mc, State.handOver_mc_sequencer]
    rfl
  · rw [← moved.ec]
    apply EngineControl.ext <;> simp
  · rw [State.closeEvent_cu, moved.cu]
  · rw [State.closeEvent_rt, moved.rt]
  · rw [State.closeEvent_tl, moved.tl]
  · rw [State.closeEvent_bc, moved.bc]

theorem State.handProbe_accepting (s : State) (i : Nat) (found : List (Option Marker)) :
    (s.handProbe i found).mc.accepting = s.mc.accepting := by
  unfold State.handProbe
  split
  · rw [State.handOver_mc_accepting]; rfl
  · rfl

/-- Settles O20: the last read by the judgement of its three results, the others by their hand-over.
-/
theorem sizeProbeDetectsTheRowCount : Obligations.SizeProbeDetectsTheRowCount := by
  refine ⟨fun s b age rest a d r1 r2 reads queued live bringup valid last waits accepting => ?last,
    fun s b a i row marker found found' c live bringup probe early access waits accepting ends =>
      ?next, detectedRows_eq_some_iff, rfl, Marker.ofImage_eq_some_iff, Marker.image_eq⟩
  case last =>
    have judged : (s.ended rest b age).probeRead (Image.ofBits d)
        = (s.ended rest b age).judgeProbe [r1, r2, Marker.ofImage (Image.ofBits d)] :=
      State.probeRead_last (s := s.ended rest b age) (found := [r1, r2]) last _
    have event := exec_probeRead reads queued live bringup valid waits
    rw [judged] at event
    have only := State.onlyController.ended s rest b age
    have same : (s.ended rest b age).ec = s.ec := only.ec
    have queue : ((s.ended rest b age).bank b).queue = (s.bank b).queue.filter fun c =>
        c.age != age :=
      State.queue_dropAccess_self _ b age
    have banks : s.onlyBank (s.ended rest b age) b :=
      State.onlyBank.trans (State.onlyBank_of_banks rfl b) (State.onlyBank_dropAccess _ b age)
    obtain ⟨rows, detected, finished⟩ | ⟨undetected, failed⟩ :=
      (s.ended rest b age).judgeProbe_cases [r1, r2, Marker.ofImage (Image.ofBits d)]
    · rw [finished] at event
      have mc := State.finishBringup_mc (s.ended rest b age) rows
      have stands : ∀ c, ((s.ended rest b age).finishBringup rows).closeEvent.bank c
          = (s.ended rest b age).bank c := State.bank_of_banks (by rw [State.closeEvent_mc, mc])
      refine ⟨_, event (by rw [mc]; exact accepting), State.raisesCause_finishBringup same rows,
        fun n detected' => ?_, fun none => absurd (detected.symm.trans none) nofun, ?_,
        fun c h => (stands c).trans (banks c h), ?_, ?_, ?_, State.sameWindow.close ?_⟩
      · obtain rfl : rows = n := Option.some.inj (detected.symm.trans detected')
        refine ⟨?_, ?_, ?_⟩
        · rw [State.closeEvent_mc, mc]
          rfl
        · rw [State.finishBringup_closeEvent_ec, same]
        · simp [State.finishBringup, only.bc]
      · rw [stands, queue]
      · simp [only.cu]
      · simp [only.rt]
      · simp [only.tl]
      · simp [State.sameWindow, State.finishBringup, only.bi, same, only.pending]
    · rw [failed] at event
      have mc := State.failBringup_mc (s.ended rest b age) .size
      have stands : ∀ c, ((s.ended rest b age).failBringup .size).closeEvent.bank c
          = (s.ended rest b age).bank c := State.bank_of_banks (by rw [State.closeEvent_mc, mc])
      refine ⟨_, event (by rw [mc]; exact accepting), State.raisesCause_failBringup same .size,
        fun n detected => absurd (undetected.symm.trans detected) nofun, fun _ => ?_, ?_,
        fun c h => (stands c).trans (banks c h), ?_, ?_, ?_, State.sameWindow.close ?_⟩
      · refine ⟨?_, ?_, ?_⟩
        · rw [State.closeEvent_mc, mc]
          rfl
        · rw [State.failBringup_closeEvent_ec, same]
        · simp [only.bc]
      · rw [stands, queue]
      · simp [only.cu]
      · simp [only.rt]
      · simp [only.tl]
      · simp [State.sameWindow, only.bi, same, only.pending]
  case next =>
    rcases ends with ⟨d, rest, rfl, reads, queued, valid, rfl⟩ | ⟨rfl, window, rfl⟩
    · have event := exec_probeRead reads queued live bringup valid waits
      rw [State.probeRead_next (s := s.ended rest b a.age) probe early] at event
      exact probe_goes_on (State.onlyController.ended s rest b a.age) access
        (event ((State.handProbe_accepting _ _ _).trans accepting))
    · have event := exec_probeWritten window live bringup waits
      rw [State.probeWritten_next (s := s.dropAccess b a.age) probe] at event
      exact probe_goes_on (State.onlyController.dropAccess s b a.age) access
        (event ((State.handProbe_accepting _ _ _).trans accepting))

end Sys2Proof.Machine
end


section
/-! One line of the cache at a time, and the arrival of the data of a fill: good, or wrong for the
first time (R42, R54, R136). -/

namespace Sys2Proof.Machine

/-! ## Sets and lines (R42, R44) -/

theorem State.cacheSet_putSet (s : State) (i j : SetId) (c : CacheSet) :
    (s.putSet i c).cacheSet j = if j = i then c else s.cacheSet j := by
  split
  case isTrue h => rw [h, State.cacheSet_putSet_self]
  case isFalse h => rw [State.cacheSet_putSet_of_ne s c h]

theorem State.line_setLine_of_ne (s : State) {i j : SetId} {v w : Way} (l : Line)
    (h : j ≠ i ∨ v ≠ w) : (s.setLine i w l).line j v = s.line j v := by
  by_cases set : j = i
  · subst set
    have other : (w : Nat) ≠ v := fun e => h.elim (· rfl) (· (Fin.ext e.symm))
    simp [State.line, State.setLine, Vector.getElem_set_ne, other]
  · rw [State.line, State.setLine, State.cacheSet_putSet_of_ne s _ set, State.line]

theorem State.onlyLine_setLine (s : State) (i : SetId) (w : Way) (l : Line) :
    s.onlyLine (s.setLine i w l) i w :=
  fun _ _ h => s.line_setLine_of_ne l h

theorem State.onlyLine_of_sets {s t : State} (h : t.bc.sets = s.bc.sets) (i : SetId) (w : Way) :
    s.onlyLine t i w :=
  fun _ _ _ => State.line_of_bc h _ _

theorem State.onlyLine.trans {s t u : State} {i : SetId} {w : Way} (h : s.onlyLine t i w)
    (h' : t.onlyLine u i w) : s.onlyLine u i w :=
  fun j v e => (h' j v e).trans (h j v e)

theorem State.line_of_onlyController {s t : State} (h : s.onlyController t) (i : SetId) (w : Way) :
    t.line i w = s.line i w :=
  State.line_of_bc (by rw [h.bc]) i w

@[simp] theorem State.setLine_waiting (s : State) (i j : SetId) (w : Way) (l : Line) :
    ((s.setLine i w l).cacheSet j).waiting = (s.cacheSet j).waiting := by
  rw [State.setLine, State.cacheSet_putSet]
  split
  case isTrue h => rw [h]
  case isFalse => rfl

@[simp] theorem State.setLine_order (s : State) (i j : SetId) (w : Way) (l : Line) :
    ((s.setLine i w l).cacheSet j).order = (s.cacheSet j).order := by
  rw [State.setLine, State.cacheSet_putSet]
  split
  case isTrue h => rw [h]
  case isFalse => rfl

/-! ## Banks after an access has left its queue -/

theorem State.queue_ended (s : State) (rest : List OutstandingRead) (b : BankId) (age : Nat) :
    ((s.ended rest b age).bank b).queue = (s.bank b).queue.filter fun c => c.age != age :=
  State.queue_dropAccess_self _ b age

theorem State.onlyBank_ended (s : State) (rest : List OutstandingRead) (b : BankId) (age : Nat) :
    s.onlyBank (s.ended rest b age) b :=
  State.onlyBank.trans (State.onlyBank_of_banks rfl b) (State.onlyBank_dropAccess _ b age)

/-- A report of the devices that leaves the Engine Control's engine, address and status as they
were, in a controller that accepts accesses, ends with no more than what it did. -/
theorem outcomeOf_quiet {s u : State} (accepting : u.mc.accepting = true) (law : s.statusLaw)
    (engine : u.ec.engine = s.ec.engine) (addr : u.ec.statusAddr = s.ec.statusAddr)
    (status : u.ec.status = s.ec.status) :
    outcomeOf (settle (thenResume (u, []))) = .next u := by
  rw [outcomeOf_delivered accepting, State.closeEvent_of_ec law engine addr status]

/-! ## The data of a fill (R54, R135, R136) -/

theorem State.fillCompleted_of_filling {s : State} {i : SetId} {w : Way}
    (filling : (s.line i w).state = .filling) (im : Image) :
    s.fillCompleted i w im =
      (s.setLine i w { s.line i w with state := .clean, image := im }, []) := by
  simp only [State.fillCompleted, filling, beq_self_eq_true, if_true, State.modifyLine]

/-- Settles O37: the access leaves its queue and the line takes the image; nothing else follows. -/
theorem readDataArrivalFillsTheLine : Obligations.ReadDataArrivalFillsTheLine := by
  intro s b age rest a i w d reads queued live requester filling valid waits accepting law
  have only := State.onlyController.ended s rest b age
  have stands : (s.ended rest b age).line i w = s.line i w := State.line_of_onlyController only i w
  have arrived : s.dataArrived d = ((s.ended rest b age).setLine i w
      { s.line i w with state := .clean, image := Image.ofBits d }, []) := by
    rw [State.dataArrived_of_valid reads queued live valid (by simp [waits]), requester,
      State.readDelivered, State.fillCompleted_of_filling (by rw [stands, filling]), stands]
  refine ⟨(s.ended rest b age).setLine i w
    { s.line i w with state := .clean, image := Image.ofBits d }, ?_, ?_⟩
  · change outcomeOf (settle (thenResume (s.dataArrived d))) = _
    rw [arrived]
    exact outcomeOf_quiet accepting law rfl rfl rfl
  · exact ⟨State.line_setLine_self _ i w _,
      (State.onlyLine_of_sets (by rw [only.bc]) i w).trans (State.onlyLine_setLine _ i w _), rfl,
      State.queue_ended s rest b age, State.onlyBank_ended s rest b age, only.bi, only.ec, only.cu,
      only.rt, only.tl, rfl⟩

/-- A retry of a read moves the controller alone, and counts (R136). -/
theorem State.retryRead_eq (s : State) (b : BankId) (a : Access) : s.retryRead b a =
    { s.retryAccess b a with ec := { s.ec with counters := { s.ec.counters with
      readRetries := s.ec.counters.readRetries +
        if a.body.requester = .bringup then 0 else 1 } } } := by
  by_cases own : a.body.requester = .bringup
  · apply State.ext <;> simp [State.retryRead, Access.ofBringup, own]
  · simp [State.retryRead, Access.ofBringup, own, State.count]

/-- Settles O38: the access is read again, at the head of its queue. -/
theorem firstCheckMismatchIsReadAgain : Obligations.FirstCheckMismatchIsReadAgain := by
  intro s b age rest a d reads queued live first bad accepting law
  have only : s.onlyController ((s.takeRead rest).retryAccess b a) :=
    (State.onlyController.takeRead s rest).trans (.retryAccess _ b a)
  have arrived : s.dataArrived d = ((s.takeRead rest).retryRead b a, []) := by
    rw [State.dataArrived_of_access reads queued, State.readArrived, if_neg (by simp [live]),
      if_neg (by simp [bad]), if_pos first]
  have bank : ∀ c, ((s.takeRead rest).retryAccess b a).bank c = _ :=
    State.bank_retryAccess (s.takeRead rest) b a
  have own := (bank b).trans (if_pos rfl)
  refine ⟨(s.takeRead rest).retryRead b a, ?_, ?_⟩
  · change outcomeOf (settle (thenResume (s.dataArrived d))) = _
    rw [arrived, State.retryRead_eq]
    exact outcomeOf_quiet accepting law rfl rfl rfl
  · rw [State.retryRead_eq]
    refine ⟨(congrArg Bank.queue own).trans ?_, (congrArg Bank.state own).trans rfl,
      (congrArg Bank.idleClose own).trans rfl, fun c other => (bank c).trans (if_neg other), rfl,
      only.bi,
      only.cu, only.rt, only.tl, only.bc, rfl⟩
    rw [first]
    rfl

end Sys2Proof.Machine
end


section
/-! Poisoning, the end of a request, and the second check mismatch of a fill (R60, R88, R136, R138,
R141). -/

namespace Sys2Proof.Machine

/-! ## One consequence at a time -/

/-- The bound on the consequences of an event leaves room for a few. -/
theorem cascadeBound_eq : Config.cascadeBound = 99980 + 20 := rfl

/-! ## Poisoning (R141, R144) -/

theorem State.poisonBucket_ec (s : State) (b : Bucket) (reason : PoisonReason) :
    (s.poisonBucket b reason).ec = ((s.count fun c =>
      { c with poisonings := c.poisonings + 1 }).statusUpdate.raise causePoison).ec := by
  simp only [State.poisonBucket, State.count, State.statusUpdate, State.raise]
  repeat' split
  all_goals simp_all

theorem State.poisonBucket_counters (s : State) (b : Bucket) (reason : PoisonReason) :
    (s.poisonBucket b reason).ec.counters =
      { s.ec.counters with poisonings := s.ec.counters.poisonings + 1 } := by
  rw [State.poisonBucket_ec]
  simp

/-- With room on the list the bucket is entered at its tail. -/
theorem State.poisonBucket_bc_of_lt {s : State} (room : s.bc.poison.length < 32) (b : Bucket)
    (reason : PoisonReason) :
    (s.poisonBucket b reason).bc = { s.bc with poison := s.bc.poison ++ [⟨b, reason⟩] } := by
  have room' : s.bc.poison.length < Config.poisonLimit := room
  simp [State.poisonBucket, room']

/-- With none the overflow flag is set. -/
theorem State.poisonBucket_bc_of_ge {s : State} (full : 32 ≤ s.bc.poison.length) (b : Bucket)
    (reason : PoisonReason) :
    (s.poisonBucket b reason).bc = { s.bc with overflow := true } := by
  have full' : ¬s.bc.poison.length < Config.poisonLimit := Nat.not_lt.mpr full
  simp [State.poisonBucket, full']

/-- A poisoning, among the last things an event does to the Engine Control, raises POISON. -/
theorem State.raisesCause_poisonBucket {s u w : State} {b : Bucket} {reason : PoisonReason}
    (kept : (u.poisonBucket b reason).sameStatus w) (same : u.ec = s.ec)
    (free : s.ec.engine ≠ .stalled) : s.raisesCause w.closeEvent 16 :=
  State.raisesCause_of_same causePoison
    (by rwa [State.sameStatus, State.poisonBucket_ec] at kept) (by simp [same]) (by simp [same])
      (by simp [State.count, same]) (by simp [State.count, same])
    (by simp [State.count, same]) (by simp [same, free])

/-! ## The end of a request in RUNNING (R79, R84, R88) -/

theorem State.setSlot_setSlot (s : State) (k : SlotId) (x y : Slot) :
    (s.setSlot k x).setSlot k y = s.setSlot k y := by
  simp [State.setSlot]

theorem State.onlySlot_setSlot (s : State) (k : SlotId) (x : Slot) : s.onlySlot (s.setSlot k x) k :=
  fun _ h => s.slot_setSlot_of_ne x h

/-- A slot whose request has ended with a result and whose result write has issued (R88). -/
def Slot.reports (x : Slot) (r : Result) : Slot :=
  { x with state := .reporting, result := some r, context := none, transfer := .none }

/-- The state in which a request has ended and its result write has issued (R88). -/
def State.answered (s : State) (k : SlotId) (r : Result) : State :=
  (s.setSlot k ((s.slot k).reports r)).issueWrite (.resultWrite k) (resultAddr (s.slot k))
    (resultBytes r)

theorem State.finishSlot_of_running {s : State} (running : s.ec.engine = .running) (k : SlotId)
    (r : Result) : s.finishSlot k r = s.answered k r := by
  have busy : s.abandoning = false := by simp [State.abandoning, running]
  rw [State.finishSlot, if_neg (by simp [busy]), State.reportResult,
    if_pos (State.mayIssue_of_running (by simpa using running))]
  simp only [State.issueResult, State.modifySlot, State.setSlot_setSlot, State.slot_setSlot_self]
  rfl

@[simp] theorem State.slot_answered_self (s : State) (k : SlotId) (r : Result) :
    (s.answered k r).slot k = (s.slot k).reports r :=
  State.slot_setSlot_self s k _

theorem State.onlySlot_answered (s : State) (k : SlotId) (r : Result) :
    s.onlySlot (s.answered k r) k :=
  fun _ h => s.slot_setSlot_of_ne _ h

theorem State.hasIssued_answered (s : State) (k : SlotId) (r : Result) :
    (s.answered k r).hasIssued (.resultWrite k) (recordAddr (s.slot k).batch (s.slot k).index + 40)
      16 (resultBytes r) :=
  State.hasIssued_issueWrite_of_length _ _ _ (resultBytes_length r)

/-- With no fence hold and no slot in WAITING_KEY the end of a request in RUNNING dispatches nobody.
-/
theorem State.finishRequest_alone {s : State} (running : s.ec.engine = .running)
    (hold : s.rt.hold = none) (keys : ∀ j : SlotId, (s.slot j).state ≠ .waitingKey) (k : SlotId)
    (r : Result) : s.finishRequest k r = (s.answered k r, [.owner]) := by
  have keys' : ∀ j : SlotId, ((s.answered k r).slot j).state ≠ .waitingKey := fun j => by
    by_cases e : j = k
    · rw [e, State.slot_answered_self]
      simp [Slot.reports]
    · rw [State.onlySlot_answered s k r j e]
      exact keys j
  simp only [State.finishRequest, State.finishSlot_of_running running, hold,
    State.releaseKey_of_none keys']
  rfl

/-! ## The second check mismatch (R60, R138) -/

/-- Data that fails its check on attempt 2, where no access waits for the bank: the read is lost. -/
theorem State.dataArrived_of_lost {s : State} {b : BankId} {age : Nat}
    {rest : List OutstandingRead} {a : Access} {d : Block128}
    (reads : s.mc.reads = .access b age :: rest) (queued : s.queued b age = some a)
    (live : a.orphan = false) (second : a.attempt = 2) (bad : (Image.ofBits d).valid = false)
    (waits : s.mc.waits = []) :
    s.dataArrived d = (s.ended rest b age).readLost a.body.requester := by
  have none : ∀ v ∈ (s.takeRead rest).mc.waits, v.place.bank ≠ b := by
    simp [State.takeRead, waits]
  rw [State.dataArrived_of_access reads queued, State.readArrived, if_neg (by simp [live]),
    if_neg (by simp [bad]), if_neg (by simp [second]), State.age_of_queued queued,
    State.leaveQueue_of_none none]
  rfl

theorem State.fillFailed_of_filling {s : State} {i : SetId} {w : Way} {bk : Bucket}
    (filling : (s.line i w).state = .filling) (tag : (s.line i w).tag = some bk) :
    s.fillFailed i w = ((s.poisonBucket bk .read).setLine i w .empty,
      (s.line i w).waiters.map .refuse ++ [.retry i, .flushCheck]) := by
  simp [State.fillFailed, filling, tag]

/-- The state in which the fill of a line has failed for good. -/
def State.fillLost (s : State) (rest : List OutstandingRead) (b : BankId) (age : Nat) (i : SetId)
    (w : Way) (bk : Bucket) : State :=
  ((s.ended rest b age).poisonBucket bk .read).setLine i w .empty

theorem State.cacheSet_of_sets {s t : State} (h : t.bc.sets = s.bc.sets) (i : SetId) :
    t.cacheSet i = s.cacheSet i := by
  simp [State.cacheSet, h]

/-- What the failure of a fill does to the line, its set and the banks. -/
theorem State.fillLost_line (s : State) (rest : List OutstandingRead) (b : BankId) (age : Nat)
    (i : SetId) (w : Way) (bk : Bucket) :
    (s.fillLost rest b age i w bk).line i w = .empty
      ∧ s.onlyLine (s.fillLost rest b age i w bk) i w
      ∧ ((s.fillLost rest b age i w bk).cacheSet i).waiting = (s.cacheSet i).waiting := by
  have only := State.onlyController.ended s rest b age
  have sets : ((s.ended rest b age).poisonBucket bk .read).bc.sets = s.bc.sets := by
    rw [State.poisonBucket_sets, only.bc]
  refine ⟨State.line_setLine_self _ i w _,
    (State.onlyLine_of_sets sets i w).trans (State.onlyLine_setLine _ i w _), ?_⟩
  rw [State.fillLost, State.setLine_waiting, State.cacheSet_of_sets sets]

theorem State.fillLost_ec (s : State) (rest : List OutstandingRead) (b : BankId) (age : Nat)
    (i : SetId) (w : Way) (bk : Bucket) : (s.fillLost rest b age i w bk).ec
      = ((s.ended rest b age).poisonBucket bk .read).ec := rfl

theorem State.fillLost_bc_of_lt {s : State} (room : s.bc.poison.length < 32)
    (rest : List OutstandingRead) (b : BankId) (age : Nat) (i : SetId) (w : Way) (bk : Bucket) :
    (s.fillLost rest b age i w bk).bc = { s.bc with
      sets := (s.fillLost rest b age i w bk).bc.sets
      poison := s.bc.poison ++ [⟨bk, .read⟩] } := by
  have only := State.onlyController.ended s rest b age
  simp [State.fillLost, State.setLine, State.putSet,
    State.poisonBucket_bc_of_lt (s := s.ended rest b age) (by simpa [only.bc] using room), only.bc]

theorem State.fillLost_bc_of_ge {s : State} (full : 32 ≤ s.bc.poison.length)
    (rest : List OutstandingRead) (b : BankId) (age : Nat) (i : SetId) (w : Way) (bk : Bucket) :
    (s.fillLost rest b age i w bk).bc = { s.bc with
      sets := (s.fillLost rest b age i w bk).bc.sets, overflow := true } := by
  have only := State.onlyController.ended s rest b age
  simp [State.fillLost, State.setLine, State.putSet,
    State.poisonBucket_bc_of_ge (s := s.ended rest b age) (by simpa [only.bc] using full), only.bc]

theorem State.fillLost_counters (s : State) (rest : List OutstandingRead) (b : BankId) (age : Nat)
    (i : SetId) (w : Way) (bk : Bucket) : (s.fillLost rest b age i w bk).ec.counters =
      { s.ec.counters with poisonings := s.ec.counters.poisonings + 1 } := by
  rw [State.fillLost_ec, State.poisonBucket_counters, (State.onlyController.ended s rest b age).ec]

/-- The event of a second mismatch, its consequences still to be taken. -/
theorem exec_fillLost {s : State} {b : BankId} {age : Nat} {rest : List OutstandingRead}
    {a : Access} {i : SetId} {w : Way} {bk : Bucket} {d : Block128}
    (reads : s.mc.reads = .access b age :: rest) (queued : s.queued b age = some a)
    (live : a.orphan = false) (second : a.attempt = 2) (requester : a.body.requester = .line i w)
    (bad : (Image.ofBits d).valid = false) (waits : s.mc.waits = [])
    (accepting : s.mc.accepting = true) (filling : (s.line i w).state = .filling)
    (tag : (s.line i w).tag = some bk) :
    exec (.readDataArrival d) s = outcomeOf (settle (s.fillLost rest b age i w bk,
      (s.line i w).waiters.map .refuse ++ [.retry i, .flushCheck])) := by
  have stands : (s.ended rest b age).line i w = s.line i w :=
    State.line_of_onlyController (State.onlyController.ended s rest b age) i w
  have arrived : s.dataArrived d = (s.fillLost rest b age i w bk,
      (s.line i w).waiters.map .refuse ++ [.retry i, .flushCheck]) := by
    rw [State.dataArrived_of_lost reads queued live second bad waits, requester, State.readLost,
      State.fillFailed_of_filling (by rw [stands, filling]) (by rw [stands, tag]), stands]
    rfl
  change outcomeOf (settle (thenResume (s.dataArrived d))) = _
  rw [arrived, thenResume_of_accepting]
  simpa [State.fillLost, State.ended, State.dropAccess, State.takeRead] using accepting

/-- Settles O39: with one waiter by taking its consequences one by one, in general by the state they
start from. -/
theorem secondCheckMismatchPoisonsTheBucket : Obligations.SecondCheckMismatchPoisonsTheBucket := by
  refine ⟨fun s b age rest a i w bk k c d reads queued live second requester bad waits accepting
      running filling tag waiters waiting flush room context visit hold keys => ?one,
    fun s b age rest a i w bk d reads queued live second requester bad waits accepting filling
      tag => ?any, fun s k c context => ⟨fun visit reserved => ?refuseTwo, fun other => ?refuse⟩,
    fun n k rest s => ⟨runTasks_nil n s, runTasks_cons n k rest s⟩, fun s l => rfl⟩
  case one =>
    have only := State.onlyController.ended s rest b age
    have event := exec_fillLost reads queued live second requester bad waits accepting filling tag
    obtain ⟨freed, others, waiting'⟩ := s.fillLost_line rest b age i w bk
    have bc := State.fillLost_bc_of_lt room rest b age i w bk
    have ec := s.fillLost_ec rest b age i w bk
    have counters := s.fillLost_counters rest b age i w bk
    have rt : (s.fillLost rest b age i w bk).rt = s.rt := by simp [State.fillLost, only.rt]
    have cu : (s.fillLost rest b age i w bk).cu = s.cu := by simp [State.fillLost, only.cu]
    have tl : (s.fillLost rest b age i w bk).tl = s.tl := by simp [State.fillLost, only.tl]
    have window : s.sameWindow (s.fillLost rest b age i w bk) := by
      simp [State.sameWindow, State.fillLost, State.poisonBucket, only.bi, only.ec, only.pending]
    generalize s.fillLost rest b age i w bk = u at *
    have slots : ∀ j, u.slot j = s.slot j := fun j => by simp [State.slot, rt]
    have running' : u.ec.engine = .running := by
      rw [ec]; simpa [State.poisonBucket, only.ec] using running
    have refused : u.refuseVisit k = (u, [.finish k (.bare .poisoned)]) :=
      State.refuseVisit_of_not_reserved_two (by rw [slots, context]) (by simp [visit])
    have finished : u.finishRequest k (.bare .poisoned) =
        (u.answered k (.bare .poisoned), [.owner]) :=
      State.finishRequest_alone running' (by rw [rt, hold])
      (fun j => by rw [slots]; exact keys j) k _
    have unowned : (u.answered k (.bare .poisoned)).checkOwner =
        (u.answered k (.bare .poisoned), []) :=
      State.checkOwner_of_none ((congrArg RequestTable.hold rt).trans hold)
    have unwaited : (u.answered k (.bare .poisoned)).retrySet i =
        (u.answered k (.bare .poisoned), []) :=
      State.retrySet_of_empty (waiting'.trans waiting)
    have unflushed : (u.answered k (.bare .poisoned)).checkFlush =
        (u.answered k (.bare .poisoned), []) :=
      State.checkFlush_of_none ((congrArg BucketCache.flush bc).trans flush)
    refine ⟨(u.answered k (.bare .poisoned)).closeEvent, event.trans ?_, ?_⟩
    · simp only [waiters, settle, cascadeBound_eq, List.map_cons, List.map_nil, List.cons_append,
        List.nil_append, runTasks_cons, runTask, refused, finished, unowned, unwaited, unflushed,
        runTasks_nil]
      rfl
    · have closedSlots : ∀ j, (u.answered k (.bare .poisoned)).closeEvent.slot j
          = (u.answered k (.bare .poisoned)).slot j := fun j => by simp [State.slot]
      have closedLines : (u.answered k (.bare .poisoned)).closeEvent.bc.sets = u.bc.sets := by
        rw [State.closeEvent_bc]; rfl
      have own : (u.answered k (.bare .poisoned)).closeEvent.slot k = _ :=
        (closedSlots k).trans (State.slot_answered_self u k _)
      refine ⟨(State.line_of_bc closedLines i w).trans freed,
        others.trans (State.onlyLine_of_sets closedLines i w), ?_, ?_, ?_, congrArg Slot.state own,
        congrArg Slot.result own, fun j h => ?_, ?_, ?_, State.sameWindow.close window, ?_⟩
      · rw [State.closeEvent_bc]; exact congrArg BucketCache.poison bc
      · rw [State.closeEvent_bc]; exact (congrArg BucketCache.overflow bc).trans rfl
      · rw [State.closeEvent_ec_counters]; exact counters
      · rw [closedSlots, State.onlySlot_answered u k _ j h, slots]
      · rw [State.closeEvent_cu]; exact cu
      · rw [State.closeEvent_tl]; exact tl
      · exact State.raisesCause_poisonBucket (State.sameStatus_of_ec ec) only.ec (by simp [running])
  case any =>
    have only := State.onlyController.ended s rest b age
    obtain ⟨freed, others, -⟩ := s.fillLost_line rest b age i w bk
    have banks : ∀ c, (s.fillLost rest b age i w bk).bank c = (s.ended rest b age).bank c :=
      State.bank_of_banks (by simp [State.fillLost])
    refine ⟨s.fillLost rest b age i w bk,
      exec_fillLost reads queued live second requester bad waits accepting filling tag, freed,
      others,
      by simp [State.fillLost, only.rt], fun room => ?_, fun full => ?_,
      s.fillLost_counters rest b age i w bk, ?_, fun c h => ?_⟩
    · have bc := State.fillLost_bc_of_lt room rest b age i w bk
      exact ⟨(congrArg BucketCache.poison bc).trans rfl,
        (congrArg BucketCache.overflow bc).trans rfl⟩
    · have bc := State.fillLost_bc_of_ge full rest b age i w bk
      exact ⟨(congrArg BucketCache.poison bc).trans rfl,
        (congrArg BucketCache.overflow bc).trans rfl⟩
    · rw [banks, State.queue_ended]
    · rw [banks, State.onlyBank_ended s rest b age c h]
  case refuseTwo =>
    simp [runTask, State.refuseVisit, context, visit, reserved, State.modifySlot]
  case refuse =>
    exact State.refuseVisit_of_not_reserved_two context (by simpa [imp_iff_not_or] using other)

end Sys2Proof.Machine
end


section
/-! The beginning and the end of the clear sweep (R61, R130, R154, R155), and write alerts (R115,
R137, R139). -/

namespace Sys2Proof.Machine

/-! ## The first writes of the clear sweep (R120, R154) -/

/-- The sweep's write of a bucket (R130, R154). -/
def sweepWrite (n : Bucket) : Transaction := ⟨.bucket n, .write .blank, .sweep⟩

/-- The buckets below 64 lie in bank 0 (R112). -/
theorem bankOf_eq_zero {n : Nat} (h : n < 64) : bankOf n = 0 := by
  refine Fin.ext ?_
  change n / 64 % 8 = 0
  omega

/-- An access of a bank that is open to it is accepted (R119). -/
theorem State.handOver_of_room {s : State} {t : Transaction} (accepting : s.mc.accepting = true)
    (room : (s.bank t.place.bank).queue.length < 16)
    (first : ∀ u ∈ s.mc.waits, u.place.bank ≠ t.place.bank) : s.handOver t = s.accept t := by
  have room' : s.hasRoom t.place.bank = true := decide_eq_true room
  have first' : s.mc.waits.any (fun u => u.place.bank == t.place.bank) = false := by
    simpa [List.any_eq_false] using first
  simp [State.handOver, accepting, room', first']

/-- An access whose bank is full, or behind another, or shut, waits (R119, R120, R132). -/
theorem State.handOver_of_busy {s : State} {t : Transaction}
    (busy : s.mc.accepting = false ∨ 16 ≤ (s.bank t.place.bank).queue.length
      ∨ ∃ u ∈ s.mc.waits, u.place.bank = t.place.bank) :
    s.handOver t = { s with mc := { s.mc with waits := s.mc.waits ++ [t] } } := by
  refine if_neg ?_
  simp only [Bool.and_eq_true, not_and, Bool.not_eq_true']
  intro accepting
  obtain shut | full | ahead := busy
  · simp [shut] at accepting
  · exact absurd (of_decide_eq_true accepting.2 : _ < 16) (Nat.not_lt.mpr full)
  · rw [Bool.not_eq_false, List.any_eq_true]
    obtain ⟨u, mem, same⟩ := ahead
    exact ⟨u, mem, beq_iff_eq.mpr same⟩

/-- The state in which the sweep, which began in `s`, has had `n` writes accepted by bank 0. -/
structure State.Swept (s t : State) (n : Nat) : Prop where
  ec : t.ec = { s.ec with sweep := ⟨.writing, n, n⟩ }
  waits : t.mc.waits = s.mc.waits
  accepting : t.mc.accepting = s.mc.accepting
  nextAge : t.mc.nextAge = s.mc.nextAge + n
  queue : (t.bank 0).queue = (s.bank 0).queue ++ (List.range n).map fun i =>
    ⟨sweepWrite i, 1, 0, s.mc.nextAge + i, false, .stopped, false⟩
  banks : s.onlyBank t 0
  tl : t.tl = s.tl

/-- The sweep, about to hand over its write of bucket `n`. -/
def State.sweepTo (s : State) (n : Nat) : State :=
  { s with ec := { s.ec with sweep := ⟨.writing, n, n⟩ } }

theorem lt_two_pow_of_size {n size : Nat} (early : n ≤ 17) (h : 10 ≤ size) : n < 2 ^ size :=
  calc n ≤ 17 := early
    _ < 2 ^ 10 := by decide
    _ ≤ 2 ^ size := Nat.pow_le_pow_right (by decide) h

theorem State.Swept.handSweepWrite_eq {s t : State} {n : Nat} (h : s.Swept t n) (early : n ≤ 16)
    (size : 10 ≤ s.tl.size) : t.handSweepWrite = (t.sweepTo (n + 1)).handOver (sweepWrite n) := by
  have last : n + 1 ≠ 2 ^ s.tl.size := (lt_two_pow_of_size (by omega) size).ne
  simp [State.handSweepWrite, State.sweepTo, h.ec, h.tl, last, sweepWrite]

/-- With a place free in bank 0's queue one more write is accepted. -/
theorem State.Swept.next {s t : State} {n : Nat} (h : s.Swept t n)
    (accepting : s.mc.accepting = true) (first : ∀ u ∈ s.mc.waits, u.place.bank ≠ 0)
    (room : (s.bank 0).queue.length + n < 16) (size : 10 ≤ s.tl.size) :
    s.Swept t.handSweepWrite (n + 1) := by
  have bank : (sweepWrite n).place.bank = 0 := bankOf_eq_zero (by omega)
  have handed : t.handSweepWrite = (t.sweepTo (n + 1)).accept (sweepWrite n) := by
    rw [h.handSweepWrite_eq (by omega) size,
      State.handOver_of_room (s := t.sweepTo (n + 1)) (h.accepting.trans accepting)]
    · rw [bank]
      change (t.bank 0).queue.length < 16
      simpa [h.queue] using room
    · rw [bank]
      change ∀ u ∈ t.mc.waits, _
      rwa [h.waits]
  have banks := State.bank_accept (t.sweepTo (n + 1)) (sweepWrite n)
  rw [handed]
  refine ⟨?_, ?_, ?_, ?_, ?_, fun c other => ?_, ?_⟩
  · simp [State.sweepTo, h.ec]
  · exact h.waits
  · exact h.accepting
  · change t.mc.nextAge + 1 = _
    rw [h.nextAge, Nat.add_assoc]
  · rw [banks, if_pos bank.symm]
    change (t.bank 0).queue ++ [⟨sweepWrite n, 1, 0, t.mc.nextAge, false, .stopped, false⟩] = _
    rw [h.queue, h.nextAge, List.range_succ, List.map_append, List.append_assoc]
    rfl
  · rw [banks, if_neg (by rwa [bank])]
    exact h.banks c other
  · simpa [State.sweepTo] using h.tl

/-- How many writes bank 0 takes before one has to wait (R120). -/
def State.freePlaces (s : State) : Nat :=
  if s.mc.accepting && s.mc.waits.all (fun u => u.place.bank != 0) then
    16 - (s.bank 0).queue.length else 0

theorem State.lt_freePlaces {s : State} {n : Nat} (h : n < s.freePlaces) :
    s.mc.accepting = true ∧ (∀ u ∈ s.mc.waits, u.place.bank ≠ 0)
      ∧ (s.bank 0).queue.length + n < 16 := by
  unfold State.freePlaces at h
  split at h
  case isTrue is_open =>
    simp only [Bool.and_eq_true, List.all_eq_true, bne_iff_ne] at is_open
    exact ⟨is_open.1, is_open.2, by omega⟩
  case isFalse => omega

theorem State.sweepWaits_eq_false {s : State} : s.sweepWaits = false ↔
    ∀ u ∈ s.mc.waits, u.requester ≠ .sweep := by
  simp [State.sweepWaits, List.any_eq_false]

/-- The sweep hands over its next write while none of its writes waits (R154). -/
theorem State.Swept.pumpSweep_succ {s t : State} {n : Nat} (h : s.Swept t n)
    (none : ∀ u ∈ s.mc.waits, u.requester ≠ .sweep) (fuel : Nat) :
    State.pumpSweep (fuel + 1) t = State.pumpSweep fuel t.handSweepWrite := by
  have idle : t.sweepWaits = false := State.sweepWaits_eq_false.mpr (by rwa [h.waits])
  rw [State.pumpSweep, if_pos (by simp [h.ec, idle])]

/-- Write after write is accepted while a place is free. -/
theorem State.Swept.pumpSweep {s t : State} (h : s.Swept t 0)
    (none : ∀ u ∈ s.mc.waits, u.requester ≠ .sweep) (size : 10 ≤ s.tl.size) {n : Nat}
    (few : n ≤ s.freePlaces) (fuel : Nat) :
    ∃ u, s.Swept u n ∧ State.pumpSweep (fuel + n) t = State.pumpSweep fuel u := by
  induction n generalizing fuel with
  | zero => exact ⟨t, h, rfl⟩
  | succ n ih =>
    obtain ⟨u, swept, pumped⟩ := ih (Nat.le_of_succ_le few) (fuel + 1)
    obtain ⟨accepting, first, room⟩ := State.lt_freePlaces few
    refine ⟨u.handSweepWrite, swept.next accepting first room size, ?_⟩
    rw [← swept.pumpSweep_succ none, ← pumped]
    congr 1
    omega

/-- From a state about to write its first bucket the sweep begins to write (R154). -/
theorem State.beginsWriting_continueSweep {s t : State} (h : s.Swept t 0)
    (none : ∀ u ∈ s.mc.waits, u.requester ≠ .sweep) (size : 10 ≤ s.tl.size)
    (few : (s.bank 0).queue.length ≤ 16) : s.beginsWriting t.continueSweep := by
  have early : s.freePlaces ≤ 16 := by
    unfold State.freePlaces
    split <;> omega
  obtain ⟨u, swept, pumped⟩ := h.pumpSweep none size le_rfl (129 - s.freePlaces)
  have bank : (sweepWrite s.freePlaces).place.bank = 0 := bankOf_eq_zero (by omega)
  have busy : u.handSweepWrite = { u.sweepTo (s.freePlaces + 1) with mc := { u.mc with
      waits := s.mc.waits ++ [sweepWrite s.freePlaces] } } := by
    rw [swept.handSweepWrite_eq early size, State.handOver_of_busy]
    · simp [State.sweepTo, swept.waits]
    · rw [bank]
      change u.mc.accepting = false ∨ 16 ≤ (u.bank 0).queue.length ∨ ∃ v ∈ u.mc.waits, _
      rw [swept.accepting, swept.waits, swept.queue, List.length_append, List.length_map,
        List.length_range]
      unfold State.freePlaces
      split
      case isTrue => omega
      case isFalse shut =>
        simp only [Bool.and_eq_true, List.all_eq_true, bne_iff_ne, not_and_or, not_forall,
          Bool.not_eq_true, not_not, exists_prop] at shut
        tauto
  have ends : t.continueSweep = u.handSweepWrite := by
    have : State.pumpSweep (129 - s.freePlaces) u = u.handSweepWrite := by
      obtain ⟨fuel, hfuel⟩ : ∃ fuel, 129 - s.freePlaces = fuel + 1 + 1 :=
          ⟨127 - s.freePlaces, by omega⟩
      rw [hfuel, swept.pumpSweep_succ none, State.pumpSweep, if_neg]
      rw [busy]
      simp [State.sweepWaits, sweepWrite]
    rw [← this, ← pumped, Nat.sub_add_cancel (by omega)]
    rfl
  rw [ends, busy]
  exact ⟨rfl, rfl, swept.queue, swept.banks⟩

/-! ## The end of the discard (R61, R154, R155) -/

theorem State.allLinesFree_iff (s : State) :
    s.allLinesFree = true ↔ ∀ (i : SetId) (w : Way), (s.line i w).state = .free := by
  simp only [State.allLinesFree, Vector.all_eq_true, beq_iff_eq]
  exact ⟨fun h i w => h i i.isLt w w.isLt, fun h i hi w hw => h ⟨i, hi⟩ ⟨w, hw⟩⟩

/-- While a line is not FREE the discard goes on (R61). -/
theorem State.checkDiscard_of_busy {s : State} {i : SetId} {w : Way}
    (busy : (s.line i w).state ≠ .free) : s.checkDiscard = s := by
  have : s.allLinesFree = false := by
    rw [← Bool.not_eq_true, State.allLinesFree_iff]
    exact fun h => busy (h i w)
  simp [State.checkDiscard, this]

/-- The sweep about to write its first bucket (R61, R154). -/
def State.startWriting (s : State) : State :=
  { s with ec := { s.ec with sweep := ⟨.writing, 0, s.ec.sweep.outstanding⟩ } }

/-- With every line FREE the sweep begins to write, or ends if it was interrupted (R61, R154, R155).
-/
theorem State.checkDiscard_of_free {s : State} (discard : s.ec.sweep.phase = .discard)
    (free : ∀ (i : SetId) (w : Way), (s.line i w).state = .free) :
    (s.ec.ending = .none → s.checkDiscard = s.startWriting.continueSweep)
      ∧ (s.ec.ending ≠ .none → s.checkDiscard = s.endSweep) := by
  have all : s.allLinesFree = true := (State.allLinesFree_iff s).mpr free
  constructor
  · intro alone
    simp [State.checkDiscard, State.discarding, discard, all, alone, State.startWriting]
  · intro interrupted
    simp [State.checkDiscard, State.discarding, discard, all, interrupted]

/-- An interrupted sweep that ends makes the engine READY (R155, R161). -/
theorem State.endSweep_of_interrupted {s : State} (h : s.ec.ending ≠ .none) : s.endSweep =
    ({ s with ec := { s.ec with
      engine := .ready, ending := .none, sweep := { s.ec.sweep with phase := .idle } } } :
      State).statusUpdate.raise causeState := by
  simp [State.endSweep, h]

theorem State.endsClearing_endSweep {s t : State} (ec : t.ec = s.ec) (mc : t.mc = s.mc)
    (cu : t.cu = s.cu) (h : s.ec.ending ≠ .none) : s.endsClearing t.endSweep := by
  rw [State.endSweep_of_interrupted (by rwa [ec])]
  refine ⟨by simp, by simp, by simp [ec], by simp [ec], by simpa using mc, by simpa using cu, ?_⟩
  exact State.raisesCause_update causeState (by simp [ec]) (by simp [ec]) (by simp [ec])
    (by simp [ec]) (by simp [ec]) (by simp)

/-- The last line that was not FREE becomes FREE. -/
theorem State.endsDiscard_of_last {s : State} {i : SetId} {w : Way} (h : s.lastOfDiscard i w) :
    s.endsDiscard (s.setLine i w .empty).checkDiscard i w := by
  obtain ⟨discard, outstanding, ⟨size, -⟩, others, none, few⟩ := h
  have free : ∀ (j : SetId) (v : Way), ((s.setLine i w .empty).line j v).state = .free := by
    intro j v
    by_cases here : j = i ∧ v = w
    · rw [here.1, here.2, State.line_setLine_self]
      rfl
    · rw [State.line_setLine_of_ne s _ (not_and_or.mp here)]
      exact others j v (not_and_or.mp here)
  have stands : (s.setLine i w .empty).checkDiscard.bc.sets = (s.setLine i w .empty).bc.sets := by
    rw [State.checkDiscard_bc]
  obtain ⟨begins, ends⟩ := State.checkDiscard_of_free (s := s.setLine i w .empty) discard free
  refine ⟨(State.line_of_bc stands i w).trans (State.line_setLine_self s i w _),
    (State.onlyLine_setLine s i w _).trans (State.onlyLine_of_sets stands i w), by simp, ?_,
    fun alone => ?_, fun interrupted => ?_⟩
  · by_cases alone : s.ec.ending = .none
    · rw [begins alone]
      simp [State.startWriting]
    · rw [ends alone, State.endSweep_of_interrupted (s := s.setLine i w .empty) alone]
      simp
  · rw [begins alone]
    refine State.beginsWriting_continueSweep ⟨?_, rfl, rfl, rfl, ?_, fun _ _ => rfl, rfl⟩
      none size few
    · simp [State.startWriting, outstanding]
    · simp
      rfl
  · rw [ends interrupted]
    exact State.endsClearing_endSweep rfl rfl rfl interrupted

/-! ## Write alerts (R115, R137) -/

theorem State.alerted_of_none {s : State} (h : s.openWindows = []) : s.alerted = (s, []) := by
  simp [State.alerted, h, byAge]

/-- The alert of the one write with an open window that is issued again. -/
theorem State.alerted_of_retry {s : State} {b : BankId} {a : Access}
    (windows : s.openWindows = [(b, a)]) (retries : a.retries = true) :
    s.alerted = (s.retryWrite b a, []) := by
  simp [State.alerted, windows, byAge, insertByAge, retries]

/-- The alert of the one write with an open window that is not, where no access waits for the bank.
-/
theorem State.alerted_of_end {s : State} {b : BankId} {a : Access}
    (windows : s.openWindows = [(b, a)]) (live : a.orphan = false) (third : a.attempt = 3) :
    s.alerted = (s.leaveQueue b a.age).writeLost a := by
  simp [State.alerted, windows, byAge, insertByAge, Access.retries, third, State.endAlerted, live]

/-- A retry of a write moves the controller alone, and counts (R137). -/
theorem State.retryWrite_eq (s : State) (b : BankId) (a : Access) : s.retryWrite b a =
    { s.retryAccess b a with ec := { s.ec with counters := { s.ec.counters with
      writeRetries := s.ec.counters.writeRetries +
        if a.body.requester = .bringup then 0 else 1 } } } := by
  by_cases own : a.body.requester = .bringup
  · apply State.ext <;> simp [State.retryWrite, Access.ofBringup, own]
  · simp [State.retryWrite, Access.ofBringup, own, State.count]

theorem exec_writeAlert (s : State) :
    exec .writeAlert s = outcomeOf (settle (thenResume s.alerted)) := rfl

theorem State.discarding_iff (s : State) : s.discarding = true ↔ s.ec.sweep.phase = .discard := by
  simp [State.discarding]

/-- A line whose write is in flight (R43). -/
def Line.inFlight (l : Line) : Prop := l.state = .writing ∨ l.state = .rewrite

theorem State.writeFailed_of_discard {s : State} {i : SetId} {w : Way}
    (inFlight : (s.line i w).inFlight) (discard : s.ec.sweep.phase = .discard) :
    s.writeFailed i w = ((s.setLine i w .empty).checkDiscard, []) := by
  rw [State.writeFailed, if_pos (by simpa [Line.inFlight] using inFlight),
    if_pos (by rwa [State.discarding_iff])]

theorem State.checkDiscard_setLine_of_busy {s : State} {i : SetId} {w : Way} (l : Line)
    (busy : ∃ (j : SetId) (v : Way), (j ≠ i ∨ v ≠ w) ∧ (s.line j v).state ≠ .free) :
    (s.setLine i w l).checkDiscard = s.setLine i w l := by
  obtain ⟨j, v, other, busy⟩ := busy
  refine State.checkDiscard_of_busy (i := j) (w := v) ?_
  rwa [State.line_setLine_of_ne s l other]

/-- The failure of a line's write, no discard in progress (R60, R73, R139). -/
theorem State.writeFailed_of_not_discard {s : State} {i : SetId} {w : Way} {bk : Bucket}
    (inFlight : (s.line i w).inFlight) (tag : (s.line i w).tag = some bk)
    (discard : s.ec.sweep.phase ≠ .discard) : s.writeFailed i w =
      ((s.poisonBucket bk .write).setLine i w .empty,
        ((s.line i w).current ++ (s.line i w).next).map (fun k => Task.finish k (.bare .poisoned))
          ++ (s.line i w).waiters.map Task.refuse
          ++ (s.line i w).claim.toList.map Task.rechoose ++ [.retry i, .flushCheck]) := by
  rw [State.writeFailed, if_pos (by simpa [Line.inFlight] using inFlight),
    if_neg (by rwa [State.discarding_iff]), tag]
  simp [poisonList]

/-- Settles O40: by the open windows, and the failure of a line by whether the cache discards. -/
theorem writeAlertRetriesTheWrite : Obligations.WriteAlertRetriesTheWrite := by
  refine ⟨fun s law accepting => ⟨fun none => ?nothing, fun b a windows live early => ?again⟩,
    fun s b a i w windows live third requester waits accepting => ?lost,
    fun s i w bk tag inFlight => ⟨fun discard => ?poisons, fun discard busy => ?discards,
      fun last => ?lastLine⟩⟩
  case nothing =>
    rw [exec_writeAlert, State.alerted_of_none none]
    exact outcomeOf_quiet accepting law rfl rfl rfl
  case again =>
    have only := State.onlyController.retryAccess s b a
    have bank : ∀ c, (s.retryAccess b a).bank c = _ := State.bank_retryAccess s b a
    have own := (bank b).trans (if_pos rfl)
    refine ⟨s.retryWrite b a, ?_, ?_⟩
    · rw [exec_writeAlert, State.alerted_of_retry windows
        (by simp [Access.retries, live]; omega), State.retryWrite_eq]
      exact outcomeOf_quiet accepting law rfl rfl rfl
    · rw [State.retryWrite_eq]
      exact ⟨(congrArg Bank.queue own).trans rfl, (congrArg Bank.state own).trans rfl,
        fun c other => (bank c).trans (if_neg other), only.bi, only.cu, only.rt, only.tl, only.bc,
        rfl⟩
  case lost =>
    refine ⟨s.dropAccess b a.age, ?_, State.onlyController.dropAccess s b a.age,
      State.queue_dropAccess_self s b a.age, State.onlyBank_dropAccess s b a.age⟩
    rw [exec_writeAlert, State.alerted_of_end windows live third,
      State.leaveQueue_of_none (by simp [waits]), State.writeLost, requester]
    exact congrArg (fun p => outcomeOf (settle p))
      (thenResume_of_accepting (p := (s.dropAccess b a.age, [.lineLost i w])) accepting)
  case poisons =>
    have room := fun h => State.poisonBucket_bc_of_lt (s := s) h bk .write
    have full := fun h => State.poisonBucket_bc_of_ge (s := s) h bk .write
    have sets := s.poisonBucket_sets bk .write
    refine ⟨_, State.writeFailed_of_not_discard inFlight tag discard,
      State.line_setLine_self _ i w _,
      (State.onlyLine_of_sets sets i w).trans (State.onlyLine_setLine _ i w
        _), by simp, by simp, ?_,
      fun h => ?_, fun h => ?_, s.poisonBucket_counters bk .write⟩
    · rw [State.setLine_order, State.cacheSet_of_sets sets]
    · exact ⟨(congrArg BucketCache.poison (room h)).trans rfl,
        (congrArg BucketCache.overflow (room h)).trans rfl⟩
    · exact ⟨(congrArg BucketCache.poison (full h)).trans rfl,
        (congrArg BucketCache.overflow (full h)).trans rfl⟩
  case discards =>
    change s.writeFailed i w = _
    rw [State.writeFailed_of_discard inFlight discard, State.checkDiscard_setLine_of_busy _ busy]
  case lastLine =>
    exact ⟨_, State.writeFailed_of_discard inFlight last.1, State.endsDiscard_of_last last⟩

end Sys2Proof.Machine
end


section
/-! The header read and the entry to RUNNING in the words of the statements (R96, R97, R153), and
the ends of the clear sweep's writes (R120, R139, R154, R155). -/

namespace Sys2Proof.Machine

/-! ## The header read (R97) -/

/-- The next header waits while 8 batches are open, or while no header is wanted. -/
theorem State.readHeader_of_closed {s : State}
    (h : s.cu.phase ≠ .header ∨ 8 ≤ s.cu.batches.length ∨ s.cu.nextAddr = none) :
    s.readHeader = s := by
  have limit : Config.openLimit = 8 := rfl
  rw [State.readHeader]
  split
  case isTrue is_open =>
    simp only [Bool.and_eq_true, beq_iff_eq, decide_eq_true_eq, limit] at is_open
    obtain phase | full | none := h
    · exact absurd is_open.1 phase
    · exact absurd is_open.2 (Nat.not_lt.mpr full)
    · simp only [none]
  case isFalse => rfl

/-- The header at an aligned address is read, unless a header read is out already or the engine is
stalled. -/
theorem State.readHeader_of_aligned {s : State} {a : Addr} (phase : s.cu.phase = .header)
    (few : s.cu.batches.length < 8) (next : s.cu.nextAddr = some a)
    (aligned : aligned64 a = true) : s.readHeader =
      if s.mayIssue && !s.readsHeader then s.issueRead .headerRead a 64 else s := by
  have few' : s.cu.batches.length < Config.openLimit := few
  simp [State.readHeader, phase, few', next, aligned]

/-- A misaligned address is refused (R97). -/
theorem State.readHeader_of_misaligned {s : State} {a : Addr} (phase : s.cu.phase = .header)
    (few : s.cu.batches.length < 8) (next : s.cu.nextAddr = some a)
    (misaligned : aligned64 a = false) : s.readHeader = s.refuseBatch := by
  have few' : s.cu.batches.length < Config.openLimit := few
  simp [State.readHeader, phase, few', next, misaligned]

theorem State.readHeader_cases (s : State) : s.readHeader = s
    ∨ (∃ a, s.readHeader = s.issueRead .headerRead a 64) ∨ s.readHeader = s.refuseBatch := by
  unfold State.readHeader
  repeat' split
  · exact .inr (.inr rfl)
  · exact .inr (.inl ⟨_, rfl⟩)
  all_goals exact .inl rfl

/-! ## What a stall leaves of the Engine Control (R163) -/

theorem State.reportStall_ec (s : State) (host bad : Bool) : (s.reportStall host bad).ec =
    { s.ec with
    engine := (s.reportStall host bad).ec.engine, ending := (s.reportStall host bad).ec.ending
    resumeState := (s.reportStall host bad).ec.resumeState
    stallHostFault := (s.reportStall host bad).ec.stallHostFault
    stallBadBatch := (s.reportStall host bad).ec.stallBadBatch
    status := (s.reportStall host bad).ec.status
    intCause := (s.reportStall host bad).ec.intCause } := by
  have enter : ∀ r, (s.enterStall r host bad).ec = { s.ec with
      engine := (s.enterStall r host bad).ec.engine, ending := (s.enterStall r host bad).ec.ending
      resumeState := (s.enterStall r host bad).ec.resumeState
      stallHostFault := (s.enterStall r host bad).ec.stallHostFault
      stallBadBatch := (s.enterStall r host bad).ec.stallBadBatch
      status := (s.enterStall r host bad).ec.status
      intCause := (s.enterStall r host bad).ec.intCause } := fun r => by
    apply EngineControl.ext <;> simp [State.enterStall]
  unfold State.reportStall
  split
  · exact enter _
  split
  · exact enter _
  split
  · split
    · apply EngineControl.ext <;> simp
    · rfl
  · rfl

/-- What a header read, refused or not, leaves of the Engine Control. -/
theorem State.readHeader_ec (s : State) : s.readHeader.ec = { s.ec with
    engine := s.readHeader.ec.engine, ending := s.readHeader.ec.ending
    resumeState := s.readHeader.ec.resumeState
    stallHostFault := s.readHeader.ec.stallHostFault, stallBadBatch := s.readHeader.ec.stallBadBatch
    status := s.readHeader.ec.status, intCause := s.readHeader.ec.intCause } := by
  obtain same | ⟨a, read⟩ | refused := s.readHeader_cases
  · rw [same]
  · rw [read]
    rfl
  · rw [refused]
    exact State.reportStall_ec _ false true

/-! ## The entry to RUNNING (R96, R153) -/

/-- RUNNING, the header at the chain start wanted, its read not yet issued (R96). -/
def State.wantHeader (s : State) : State :=
  { s with
    ec := { s.ec with engine := .running }
    cu := { s.cu with phase := .header, nextAddr := some s.cu.chainStart } }

theorem State.enterRunning_eq (s : State) :
    s.enterRunning = s.wantHeader.statusUpdate.readHeader := rfl

theorem State.readsHeader_of_eq {s t : State} (accesses : t.bi.accesses = s.bi.accesses)
    (faulted : t.cu.faulted = s.cu.faulted) : t.readsHeader = s.readsHeader := by
  simp only [State.readsHeader, State.outstanding, accesses, faulted]

/-- With no header read out the header at an aligned chain start is read. -/
theorem State.enterRunning_of_aligned {s : State} (aligned : aligned64 s.cu.chainStart = true)
    (none : s.cu.batches = []) (reads : s.readsHeader = false) :
    s.enterRunning = s.wantHeader.statusUpdate.issueRead .headerRead s.cu.chainStart 64 := by
  have reads' : s.wantHeader.statusUpdate.readsHeader = false :=
    (State.readsHeader_of_eq (by simp [State.wantHeader]) (by simp [State.wantHeader])).trans reads
  have may : s.wantHeader.statusUpdate.mayIssue = true :=
    State.mayIssue_of_running (by simp [State.wantHeader])
  rw [State.enterRunning_eq, State.readHeader_of_aligned (a := s.cu.chainStart)
    (by simp [State.wantHeader]) (by simp [State.wantHeader, none]) (by simp [State.wantHeader])
    aligned, may, reads']
  rfl

theorem State.enterRunning_ec (s : State) : s.enterRunning.ec = { s.ec with
    engine := s.enterRunning.ec.engine, ending := s.enterRunning.ec.ending
    resumeState := s.enterRunning.ec.resumeState
    stallHostFault := s.enterRunning.ec.stallHostFault
    stallBadBatch := s.enterRunning.ec.stallBadBatch
    status := s.enterRunning.ec.status, intCause := s.enterRunning.ec.intCause } := by
  have read := s.wantHeader.statusUpdate.readHeader_ec
  rw [← State.enterRunning_eq] at read
  rw [read]
  apply EngineControl.ext <;> simp [State.wantHeader]

theorem State.raise_ec_congr {s t : State} (h : t.ec = s.ec) (cause : BitVec 5) :
    (t.raise cause).ec = (s.raise cause).ec := by
  simp only [State.raise, h]
  split <;> rfl

/-! ## A freed place is taken (R120) -/

/-- The state in which a queue wait's access `v` has taken the place that an ended access left;
`left` are the accesses that still wait. -/
def State.takePlace (s : State) (b : BankId) (age : Nat) (left : List Transaction)
    (v : Transaction) : State :=
  ({ s.dropAccess b age with mc := { (s.dropAccess b age).mc with waits := left } } :
    State).accept v

theorem State.onlyController.takePlace (s : State) (b : BankId) (age : Nat)
    (left : List Transaction) (v : Transaction) : s.onlyController (s.takePlace b age left v) :=
  ((State.onlyController.dropAccess s b age).trans (.of_mc _ _)).trans (.accept _ v)

theorem State.bank_takePlace (s : State) {b : BankId} (age : Nat) (left : List Transaction)
    {v : Transaction} (here : v.place.bank = b) :
    ((s.takePlace b age left v).bank b).queue = ((s.bank b).queue.filter fun a => a.age != age)
        ++ [⟨v, 1, 0, s.mc.nextAge, false, .stopped, false⟩]
      ∧ s.onlyBank (s.takePlace b age left v) b := by
  have accepted := State.bank_accept
    ({ s.dropAccess b age with mc := { (s.dropAccess b age).mc with waits := left } } : State) v
  constructor
  · refine (congrArg Bank.queue ((accepted b).trans (if_pos here.symm))).trans ?_
    exact congrArg (· ++ _) (s.queue_dropAccess_self b age)
  · intro c other
    exact ((accepted c).trans (if_neg (by rwa [here]))).trans (s.onlyBank_dropAccess b age c other)

/-- The oldest access that waits for the bank takes the place (R120). -/
theorem State.leaveQueue_of_waiting {s : State} {b : BankId} {age : Nat}
    {pre post : List Transaction} {v : Transaction} (waits : s.mc.waits = pre ++ v :: post)
    (younger : ∀ x ∈ pre, x.place.bank ≠ b) (here : v.place.bank = b)
    (accepting : s.mc.accepting = true)
    (room : ((s.bank b).queue.filter fun a => a.age != age).length < 16) :
    s.leaveQueue b age = if v.requester = .sweep then
      (s.takePlace b age (pre ++ post) v).continueSweep else s.takePlace b age (pre ++ post) v := by
  have skip : ∀ x ∈ pre, ¬(x.place.bank == b) = true := by simpa using younger
  have found : (s.dropAccess b age).mc.waits.find? (fun t => t.place.bank == b) = some v := by
    change s.mc.waits.find? _ = _
    rw [waits, List.find?_append, List.find?_eq_none.mpr skip]
    simp [here]
  have erased : (s.dropAccess b age).mc.waits.eraseP (fun u => u.place.bank == b) =
      pre ++ post := by
    change s.mc.waits.eraseP _ = _
    rw [waits, List.eraseP_append_right _ skip, List.eraseP_cons_of_pos (by simp [here])]
  have room' : (s.dropAccess b age).hasRoom b = true := by
    refine decide_eq_true ?_
    rwa [State.queue_dropAccess_self]
  have free : ((s.dropAccess b age).mc.accepting && (s.dropAccess b age).hasRoom b) = true := by
    rw [room', Bool.and_true]
    exact accepting
  change (s.dropAccess b age).acceptWaiting b = _
  rw [State.acceptWaiting, if_pos free]
  simp only [found, erased, beq_iff_eq]
  rfl

/-! ## The ends of the sweep's writes (R154) -/

/-- One write of the sweep fewer is outstanding. -/
def State.sweepEnded (s : State) : State :=
  { s with ec := { s.ec with sweep :=
    { s.ec.sweep with outstanding := s.ec.sweep.outstanding - 1 } } }

/-- While writes are outstanding, or still to be handed over, the sweep goes on. -/
theorem State.sweepWriteEnded_of_busy {s : State}
    (busy : s.ec.sweep.phase ≠ .draining ∨ 1 < s.ec.sweep.outstanding) :
    s.sweepWriteEnded = s.sweepEnded := by
  change s.sweepEnded.checkSweepEnd = _
  rw [State.checkSweepEnd, if_neg]
  simp only [State.sweepEnded, Bool.and_eq_true, beq_iff_eq, not_and]
  intro draining done
  obtain other | several := busy
  · exact other draining
  · omega

/-- The last write outstanding in DRAINING ends it. -/
theorem State.sweepWriteEnded_of_last {s : State} (draining : s.ec.sweep.phase = .draining)
    (last : s.ec.sweep.outstanding = 1) : s.sweepWriteEnded = s.sweepEnded.endSweep := by
  change s.sweepEnded.checkSweepEnd = _
  rw [State.checkSweepEnd, if_pos]
  simp [State.sweepEnded, draining, last]

/-- The loss of a write of the sweep, as an event (R139, R140). -/
theorem exec_sweepLost {s u : State} {b : BankId} {a : Access} {bk : Bucket}
    (windows : s.openWindows = [(b, a)]) (live : a.orphan = false) (third : a.attempt = 3)
    (requester : a.body.requester = .sweep) (place : a.body.place = .bucket bk)
    (left : s.leaveQueue b a.age = u) (accepting : u.mc.accepting = true)
    (goesOn : u.ec.sweep.phase ≠ .draining ∨ 1 < u.ec.sweep.outstanding) :
    exec .writeAlert s = .next (u.poisonBucket bk .write).sweepEnded.closeEvent := by
  have sweep : (u.poisonBucket bk .write).ec.sweep = u.ec.sweep := by simp [State.poisonBucket]
  have lost : u.writeLost a = ((u.poisonBucket bk .write).sweepEnded, []) := by
    rw [State.writeLost, requester, place]
    refine Prod.ext (State.sweepWriteEnded_of_busy ?_) rfl
    rwa [sweep]
  rw [exec_writeAlert, State.alerted_of_end windows live third, left, lost]
  refine outcomeOf_delivered ?_
  simpa [State.sweepEnded] using accepting

/-- What the loss of a write of the sweep leaves, its controller aside. -/
theorem State.sweepLost_frame {s u : State} (bk : Bucket) {sweep : Sweep}
    (ec : u.ec = { s.ec with sweep := sweep }) (bi : u.bi = s.bi) (bc : u.bc = s.bc)
    (pending : u.pending = s.pending) (room : s.bc.poison.length < 32)
    (clearing : s.ec.engine = .clearing) :
    let t := (u.poisonBucket bk .write).sweepEnded.closeEvent
    t.bc = { s.bc with poison := s.bc.poison ++ [⟨bk, .write⟩] }
      ∧ t.ec = { s.ec with
          counters := { s.ec.counters with poisonings := s.ec.counters.poisonings + 1 }
          sweep := { sweep with outstanding := sweep.outstanding - 1 }
          status := t.ec.status, intCause := t.ec.intCause }
      ∧ s.raisesCause t 16 ∧ t.mc = u.mc ∧ t.cu = u.cu ∧ t.rt = u.rt ∧ t.tl = u.tl
      ∧ s.sameWindow t := by
  intro t
  refine ⟨?_, ?_, ?_, by simp [t, State.sweepEnded], by simp [t, State.sweepEnded],
    by simp [t, State.sweepEnded], by simp [t, State.sweepEnded], State.sameWindow.close ?_⟩
  · rw [State.closeEvent_bc]
    change (u.poisonBucket bk .write).bc = _
    rw [State.poisonBucket_bc_of_lt (by rwa [bc]), bc]
  · apply EngineControl.ext <;> simp [t, State.sweepEnded, State.poisonBucket, ec]
  · have same : ((u.count fun c => { c with poisonings := c.poisonings + 1 }).statusUpdate.raise
        causePoison).sameStatus (u.poisonBucket bk .write) :=
      State.sameStatus_of_ec (u.poisonBucket_ec bk .write)
    exact State.raisesCause_of_same (w := (u.poisonBucket bk .write).sweepEnded) causePoison same
      (by simp [ec]) (by simp [ec])
      (by simp [State.count, ec]) (by simp [State.count, ec]) (by simp [State.count, ec])
      (by simp [ec, clearing])
  · simp [State.sameWindow, State.sweepEnded, State.poisonBucket, bi, ec, pending]

/-- The sweep has handed over its next write, which waits alone; the last one is DRAINING (R154). -/
def State.sweepFollows (s : State) : State :=
  { s with
    ec := { s.ec with sweep :=
      { phase := if s.ec.sweep.next + 1 = 2 ^ s.tl.size then .draining else .writing
        next := s.ec.sweep.next + 1, outstanding := s.ec.sweep.outstanding + 1 } }
    mc := { s.mc with waits := [sweepWrite s.ec.sweep.next] } }

/-- The sweep, none of whose writes waits and the bank of whose next one is full, hands that one
over and stops. -/
theorem State.continueSweep_of_full {s : State} (writing : s.ec.sweep.phase = .writing)
    (waits : s.mc.waits = []) (full : 16 ≤ (s.bank (bankOf s.ec.sweep.next)).queue.length) :
    s.continueSweep = s.sweepFollows := by
  have idle : s.sweepWaits = false := by simp [State.sweepWaits, waits]
  have handed : s.handSweepWrite = s.sweepFollows := by
    rw [State.handSweepWrite, State.handOver_of_busy (.inr (.inl full))]
    simp [waits, sweepWrite, State.sweepFollows]
  have fuel : Config.sweepBound = 127 + 1 + 1 := rfl
  rw [State.continueSweep, fuel, State.pumpSweep, if_pos (by simp [writing, idle]), handed,
    State.pumpSweep, if_neg]
  simp [State.sweepFollows, State.sweepWaits, sweepWrite]

/-- What the end of the sweep leaves alone in the Engine Control and on the bus (R154, R155). -/
theorem State.endSweep_frame (s : State) : s.endSweep.ec.sweep = { s.ec.sweep with phase := .idle }
    ∧ s.endSweep.ec.counters = s.ec.counters ∧ s.sameWindow s.endSweep := by
  by_cases alone : s.ec.ending = .none
  · have running : ∀ x : State, x.enterRunning.ec.sweep = x.ec.sweep
        ∧ x.enterRunning.ec.counters = x.ec.counters ∧ x.enterRunning.ec.intMask = x.ec.intMask :=
      fun x => by rw [x.enterRunning_ec]; exact ⟨rfl, rfl, rfl⟩
    have window : ∀ x : State, x.enterRunning.bi.setupL = x.bi.setupL
        ∧ x.enterRunning.bi.setupH = x.bi.setupH := fun x => by
      obtain same | ⟨a, read⟩ | refused := x.wantHeader.statusUpdate.readHeader_cases
      · rw [State.enterRunning_eq, same]; simp [State.wantHeader]
      · rw [State.enterRunning_eq, read]; simp [State.wantHeader, State.issueRead, State.issue]
      · rw [State.enterRunning_eq, refused]; simp [State.wantHeader]
    simp [State.endSweep, alone, State.sameWindow, running, window]
  · rw [State.endSweep_of_interrupted alone]
    simp [State.sameWindow]

/-- The sweep has ended uninterrupted: the identity is set (R154). -/
def State.identify (s : State) : State :=
  { s with ec := { s.ec with
    identity := some ⟨s.tl.size, s.tl.seed⟩, sweep := { s.ec.sweep with phase := .idle } } }

theorem State.endSweep_of_alone {s : State} (alone : s.ec.ending = .none) :
    s.endSweep = s.identify.enterRunning.raise causeState := by
  simp [State.endSweep, alone, State.identify]

/-- The sweep, not interrupted, that ends with an aligned chain start and no batch or header read
open: the identity is set, the engine RUNNING, the header read issued, STATE raised (R153, R154). -/
theorem State.endSweep_runs {s : State} (alone : s.ec.ending = .none)
    (aligned : aligned64 s.cu.chainStart = true) (none : s.cu.batches = [])
    (reads : s.readsHeader = false) :
    let t := s.endSweep.closeEvent
    t.ec.engine = .running ∧ t.ec.identity = some ⟨s.tl.size, s.tl.seed⟩
      ∧ t.cu = { s.cu with phase := .header, nextAddr := some s.cu.chainStart }
      ∧ t.hasIssued .headerRead s.cu.chainStart 64 [] ∧ s.raisesCause t 8 := by
  intro t
  have ends : s.endSweep = (s.identify.wantHeader.statusUpdate.issueRead .headerRead
      s.cu.chainStart 64).raise causeState := by
    rw [State.endSweep_of_alone alone, State.enterRunning_of_aligned (s := s.identify) aligned none
      reads]
    rfl
  refine ⟨?_, ?_, ?_, ?_, ?_⟩
  · simp [t, ends, State.wantHeader]
  · simp [t, ends, State.wantHeader, State.identify]
  · simp [t, ends, State.wantHeader, State.identify]
  · refine State.hasIssued.closeEvent ?_
    rw [ends]
    simp [State.hasIssued]
  · refine State.raisesCause_of_same (u := s.identify.wantHeader) causeState
      (State.sameStatus_of_ec ?_) rfl rfl rfl rfl rfl (by simp [State.wantHeader])
    rw [ends]
    exact State.raise_ec_congr (State.issueRead_ec _ _ _ _) _

/-- Settles O41: a write lost alone, a write lost where the sweep's own next one waits, and the last
write of a sweep that drains. -/
theorem sweepWritesEnd : Obligations.SweepWritesEnd := by
  intro s b a bk live requester place accepting
  refine ⟨fun windows third clearing room waits phase outstanding => ?alone,
    fun n windows third clearing room writing outstanding waits here next left => ?followed,
    fun age window waits draining last => ?ends⟩
  case alone =>
    have only := State.onlyController.dropAccess s b a.age
    obtain ⟨bc, ec, raises, mc, cu, rt, tl, window⟩ := State.sweepLost_frame (s := s)
      (u := s.dropAccess b a.age) bk (sweep := s.ec.sweep) rfl only.bi only.bc only.pending room
      clearing
    have stands := State.bank_of_banks (congrArg MemoryController.banks mc)
    refine ⟨_, exec_sweepLost windows live third requester place (State.leaveQueue_of_none waits _)
      accepting (.inr outstanding), bc, ec, raises,
      (congrArg MemoryController.waits mc).trans rfl, ?_,
      fun c h => ?_, cu, rt, tl, window⟩
    · rw [stands, State.queue_dropAccess_self]
    · rw [stands]
      exact s.onlyBank_dropAccess b a.age c h
  case followed =>
    obtain ⟨queue, banks⟩ := s.bank_takePlace a.age [] (v := sweepWrite n) here
    have only := State.onlyController.takePlace s b a.age [] (sweepWrite n)
    have taken : s.leaveQueue b a.age = (s.takePlace b a.age [] (sweepWrite n)).sweepFollows := by
      refine (State.leaveQueue_of_waiting (pre := []) (v := sweepWrite n) waits (by simp) here
        accepting (by omega)).trans ((if_pos rfl).trans ?_)
      refine State.continueSweep_of_full (s := s.takePlace b a.age [] (sweepWrite n))
        (by rw [only.ec, writing]) rfl ?_
      rw [only.ec, next, queue]
      simp [left]
    have accepting' : (s.takePlace b a.age [] (sweepWrite n)).mc.accepting = true := accepting
    generalize s.takePlace b a.age [] (sweepWrite n) = v at *
    obtain ⟨bc, ec, raises, mc, cu, rt, tl, window⟩ := State.sweepLost_frame (s := s)
      (u := v.sweepFollows) bk (sweep := v.sweepFollows.ec.sweep) (by rw [← only.ec]; rfl) only.bi
      only.bc only.pending room clearing
    have stands := State.bank_of_banks (congrArg MemoryController.banks mc)
    refine ⟨_, exec_sweepLost windows live third requester place taken ?_ ?_, bc, ec.trans ?_,
      raises,
      (congrArg MemoryController.waits mc).trans ?_, (congrArg Bank.queue (stands b)).trans queue,
      fun c h => (stands c).trans (banks c h), cu.trans only.cu, rt.trans only.rt, tl.trans only.tl,
      window⟩
    · exact accepting'
    · refine .inr ?_
      simp only [State.sweepFollows, only.ec]
      omega
    · simp [State.sweepFollows, only.ec, only.tl]
    · simp [State.sweepFollows, only.ec, sweepWrite]
  case ends =>
    have only := State.onlyController.dropAccess s b age
    have closed : s.windowClosed age = ((s.dropAccess b age).sweepEnded.endSweep, []) := by
      rw [State.windowClosed_of_live window live (by simp [waits]), requester, State.writeDelivered,
        State.sweepWriteEnded_of_last (s := s.dropAccess b age) draining last]
    obtain ⟨sweep, counters, kept⟩ := (s.dropAccess b age).sweepEnded.endSweep_frame
    refine ⟨(s.dropAccess b age).sweepEnded.endSweep.closeEvent, ?_, ?_, ?_, ?_, ?_, ?_,
      State.sameWindow.close kept, ?_, fun alone aligned none reads => ?_, fun interrupted => ?_⟩
    · change outcomeOf (settle (thenResume (s.windowClosed age))) = _
      rw [closed]
      refine outcomeOf_delivered ?_
      rw [State.endSweep_mc]
      exact accepting
    · rw [State.closeEvent_ec_sweep, sweep]
    · rw [State.closeEvent_ec_sweep, sweep]
      simp [State.sweepEnded, only.ec, last]
    · simp [only.bc, State.sweepEnded]
    · simp [only.rt, State.sweepEnded]
    · simp [only.tl, State.sweepEnded]
    · rw [State.closeEvent_ec_counters, counters]
      simp [State.sweepEnded, only.ec]
    · exact State.endSweep_runs (s := (s.dropAccess b age).sweepEnded) alone aligned none reads
    · obtain ⟨ready, ending, -, identity, -, cu, raises⟩ := State.endsClearing_endSweep
        (s := (s.dropAccess b age).sweepEnded) (t := (s.dropAccess b age).sweepEnded) rfl rfl rfl
        interrupted
      simp only [State.closeEvent_ec_engine, State.closeEvent_ec_ending,
        State.closeEvent_ec_identity, State.closeEvent_cu]
      exact ⟨ready, ending, identity, cu, raises⟩

end Sys2Proof.Machine
end


section
/-! The cache's operations in the words of the statements: allocation of a line with a fill and
without one (R51, R59), the two treatments of a modification (R65 to R67), and a line's writes
(R68). -/

namespace Sys2Proof.Machine

/-! ## The order of use and the wait list of a set (R44, R48) -/

theorem State.touch_sets (s : State) (i j : SetId) (w : Way) : (s.touch i w).cacheSet j =
    if j = i then { s.cacheSet i with order := (s.cacheSet i).order.filter (· != w) ++ [w] }
    else s.cacheSet j :=
  s.cacheSet_putSet i j _

@[simp] theorem State.touch_order_self (s : State) (i : SetId) (w : Way) :
    ((s.touch i w).cacheSet i).order = (s.cacheSet i).order.filter (· != w) ++ [w] := by
  rw [State.touch_sets, if_pos rfl]

@[simp] theorem State.touch_waiting (s : State) (i j : SetId) (w : Way) :
    ((s.touch i w).cacheSet j).waiting = (s.cacheSet j).waiting := by
  rw [State.touch_sets]
  split
  case isTrue h => rw [h]
  case isFalse => rfl

theorem State.setWaiting_sets (s : State) (i j : SetId) (l : List SlotId) :
    (s.setWaiting i l).cacheSet j =
      if j = i then { s.cacheSet i with waiting := l } else s.cacheSet j :=
  s.cacheSet_putSet i j _

@[simp] theorem State.setWaiting_waiting_self (s : State) (i : SetId) (l : List SlotId) :
    ((s.setWaiting i l).cacheSet i).waiting = l := by
  rw [State.setWaiting_sets, if_pos rfl]

@[simp] theorem State.setWaiting_order (s : State) (i j : SetId) (l : List SlotId) :
    ((s.setWaiting i l).cacheSet j).order = (s.cacheSet j).order := by
  rw [State.setWaiting_sets]
  split
  case isTrue h => rw [h]
  case isFalse => rfl

theorem State.line_setWaiting (s : State) (i j : SetId) (l : List SlotId) (w : Way) :
    (s.setWaiting i l).line j w = s.line j w := by
  by_cases h : j = i
  · subst h
    simp [State.line, State.setWaiting]
  · simp [State.line, State.setWaiting_sets, h]

theorem State.slot_of_rt {s t : State} (h : t.rt = s.rt) (k : SlotId) : t.slot k = s.slot k := by
  rw [State.slot, State.slot, h]

theorem State.onlySlot_of_rt {s t : State} (h : t.rt = s.rt) (k : SlotId) : s.onlySlot t k :=
  fun j _ => State.slot_of_rt h j

theorem State.onlySlot.trans {s t u : State} {k : SlotId} (h : s.onlySlot t k)
    (h' : t.onlySlot u k) : s.onlySlot u k :=
  fun j e => (h' j e).trans (h j e)

theorem State.visitBucket_of_rt {s t : State} (h : t.rt = s.rt) (k : SlotId) :
    t.visitBucket k = s.visitBucket k := by
  rw [State.visitBucket, State.visitBucket, State.slot_of_rt h]

theorem State.visitBucket_of_context {s : State} {k : SlotId} {c : Context}
    (context : (s.slot k).context = some c) : s.visitBucket k = c.bucket := by
  simp [State.visitBucket, context]

theorem State.needsNoFill_of_context {s : State} {k : SlotId} {c : Context}
    (context : (s.slot k).context = some c) :
    s.needsNoFill k = c.request.kind.replacesImage := by
  simp [State.needsNoFill, context]

/-! ## Allocation with a fill (R51, R53, R57) -/

/-- From `s` to `t` line `w` of set `i` is given to request `k` for bucket `b` and its fill is
handed over: `k` is the first waiter, the waiting requests for `b` stand behind it (R51). -/
structure State.FillsFor (s t : State) (i : SetId) (w : Way) (k : SlotId) (b : Bucket) : Prop where
  line : t.line i w = Line.filling b
    (k :: (s.cacheSet i).waiting.filter fun j => s.visitBucket j == b)
  onlyLine : s.onlyLine t i w
  waiting : (t.cacheSet i).waiting = (s.cacheSet i).waiting.filter fun j => s.visitBucket j != b
  order : (t.cacheSet i).order = (s.cacheSet i).order.filter (· != w) ++ [w]
  handsOver : t.handsOver ⟨.bucket b, .read, .line i w⟩
  ec : t.ec = { s.ec with counters := { s.ec.counters with fills := s.ec.counters.fills + 1 } }
  rt : t.rt = s.rt
  bi : t.bi = s.bi
  cu : t.cu = s.cu
  tl : t.tl = s.tl
  poison : t.bc.poison = s.bc.poison
  pending : t.pending = s.pending

/-- The line, its set's order of use and its wait list as an allocation with a fill sets them. -/
def State.tagLine (s : State) (i : SetId) (w : Way) (k : SlotId) (b : Bucket) : State :=
  ((s.setLine i w (.filling b (k :: (s.cacheSet i).waiting.filter fun j =>
    s.visitBucket j == b))).touch
    i w).setWaiting i ((s.cacheSet i).waiting.filter fun j => s.visitBucket j != b)

theorem State.allocateFill_sets (s : State) (i : SetId) (w : Way) (k : SlotId) (b : Bucket) :
    (s.allocateFill i w k b).bc.sets = (s.tagLine i w k b).bc.sets := by
  change ((s.tagLine i w k b).countFill.handOver _).bc.sets = _
  simp

theorem State.fillsFor_allocateFill (s : State) (i : SetId) (w : Way) (k : SlotId) (b : Bucket) :
    s.FillsFor (s.allocateFill i w k b) i w k b := by
  have sets := s.allocateFill_sets i w k b
  constructor
  case line =>
    rw [State.line_of_bc sets, State.tagLine, State.line_setWaiting, State.line_touch,
      State.line_setLine_self]
  case onlyLine =>
    intro j v other
    rw [State.line_of_bc sets, State.tagLine, State.line_setWaiting, State.line_touch,
      State.line_setLine_of_ne s _ other]
  case waiting => rw [State.cacheSet_of_sets sets, State.tagLine, State.setWaiting_waiting_self]
  case order =>
    rw [State.cacheSet_of_sets sets, State.tagLine, State.setWaiting_order, State.touch_order_self,
      State.setLine_order]
  case handsOver => exact State.handsOver_handOver _ _
  case ec => simp [State.allocateFill, State.countFill, State.count]
  all_goals simp [State.allocateFill]

/-! ## A line's writes and the two treatments (R65 to R68) -/

theorem State.setSlot_self {s : State} {k : SlotId} {x : Slot} (h : x = s.slot k) :
    s.setSlot k x = s := by
  subst h
  simp [State.setSlot, State.slot]

/-- A line hands over a write of its image (R68). -/
theorem State.handsOver_handLineWrite {s : State} {i : SetId} {w : Way} {l : Line}
    (line : s.line i w = l) : (s.handLineWrite i w).handsOver
      ⟨.bucket (l.tag.getD 0), .write l.image, .line i w⟩ := by
  subst line
  exact State.handsOver_handOver _ _

/-- From `s` to `t` line `w` of set `i` becomes `l` and hands over a write of its image; the
counters change by `f` (R68, R77). -/
structure State.HandsLine (s t : State) (i : SetId) (w : Way) (l : Line)
    (f : Counters → Counters) : Prop where
  bc : t.bc = (s.setLine i w l).bc
  handsOver : t.handsOver ⟨.bucket (l.tag.getD 0), .write l.image, .line i w⟩
  ec : t.ec = { s.ec with counters := f s.ec.counters }
  rt : t.rt = s.rt
  bi : t.bi = s.bi
  cu : t.cu = s.cu
  tl : t.tl = s.tl
  pending : t.pending = s.pending

namespace State.HandsLine

theorem of_count (s : State) (i : SetId) (w : Way) (l : Line) (f : Counters → Counters) :
    s.HandsLine (((s.setLine i w l).count f).handLineWrite i w) i w l f where
  bc := by simp
  handsOver := State.handsOver_handLineWrite (s := (s.setLine i w l).count f)
    (State.line_setLine_self s i w l)
  ec := by simp [State.count]
  rt := by simp
  bi := by simp
  cu := by simp
  tl := by simp
  pending := by simp

theorem line {s t : State} {i : SetId} {w : Way} {l : Line} {f : Counters → Counters}
    (h : s.HandsLine t i w l f) : t.line i w = l := by
  rw [State.line_of_bc (congrArg BucketCache.sets h.bc), State.line_setLine_self]

theorem onlyLine {s t : State} {i : SetId} {w : Way} {l : Line} {f : Counters → Counters}
    (h : s.HandsLine t i w l f) : s.onlyLine t i w :=
  (State.onlyLine_setLine s i w l).trans
    (State.onlyLine_of_sets (congrArg BucketCache.sets h.bc) i w)

theorem waiting {s t : State} {i : SetId} {w : Way} {l : Line} {f : Counters → Counters}
    (h : s.HandsLine t i w l f) : (t.cacheSet i).waiting = (s.cacheSet i).waiting := by
  rw [State.cacheSet_of_sets (congrArg BucketCache.sets h.bc), State.setLine_waiting]

theorem order {s t : State} {i : SetId} {w : Way} {l : Line} {f : Counters → Counters}
    (h : s.HandsLine t i w l f) : (t.cacheSet i).order = (s.cacheSet i).order := by
  rw [State.cacheSet_of_sets (congrArg BucketCache.sets h.bc), State.setLine_order]

theorem poison {s t : State} {i : SetId} {w : Way} {l : Line} {f : Counters → Counters}
    (h : s.HandsLine t i w l f) : t.bc.poison = s.bc.poison :=
  (congrArg BucketCache.poison h.bc).trans rfl

end State.HandsLine

theorem State.throughTreatment_iff (s : State) (kind : Kind) (b : Bucket) :
    s.throughTreatment kind b = true ↔ kind = .repair ∨ s.bc.policy = .through
      ∨ (s.bc.policy = .adaptive ∧ s.openRow b = true) := by
  unfold State.throughTreatment
  split
  case h_1 => simp
  case h_2 _ other =>
    have notRepair : kind ≠ .repair := other
    cases s.bc.policy <;> simp [notRepair]

/-- The end of a modifying step by the back treatment (R67). -/
theorem State.applyStep_back {s : State} {i : SetId} {w : Way} {k : SlotId} {kind : Kind}
    {out : StepResult} {r : Result} (ends : out.ending = .final r)
    (modifying : out.modifying = true)
    (back : ¬s.throughTreatment kind ((s.line i w).tag.getD 0) = true) :
    s.applyStep i w k kind out =
      (s.setLine i w { s.line i w with image := out.image, state := (s.line i w).state.afterBack },
        [.finish k r]) := by
  simp [State.applyStep, ends, modifying, back, State.modifyBack, State.modifyLine]

/-- The end of a modifying step by the through treatment: the request waits for the write (R67). -/
theorem State.applyStep_through {s : State} {i : SetId} {w : Way} {k : SlotId} {kind : Kind}
    {out : StepResult} {r : Result} (ends : out.ending = .final r)
    (modifying : out.modifying = true)
    (through : s.throughTreatment kind ((s.line i w).tag.getD 0) = true) :
    s.applyStep i w k kind out =
      ((s.modifyThrough i w k out.image).modifySlot k fun x =>
        { x with state := .awaitingWrite, result := some r }, []) := by
  simp [State.applyStep, ends, modifying, through]

/-- One through-write more (R77). -/
def Counters.through (c : Counters) : Counters := { c with throughWrites := c.throughWrites + 1 }

/-- On a line with no write in flight the write is handed over at once and counted (R67). -/
theorem State.handsLine_modifyThrough {s : State} {i : SetId} {w : Way}
    (resting : (s.line i w).state = .clean ∨ (s.line i w).state = .dirty) (k : SlotId)
      (im : Image) :
    s.HandsLine (s.modifyThrough i w k im) i w { s.line i w with
      image := im, state := .writing, current := (s.line i w).current ++ [k] } .through := by
  have writes := State.HandsLine.of_count s i w { s.line i w with
    image := im, state := .writing, current := (s.line i w).current ++ [k] } .through
  rcases resting with h | h <;> simp only [State.modifyThrough, h] <;> exact writes

theorem State.handsOver_setSlot {s : State} {u : Transaction} (h : s.handsOver u) (k : SlotId)
    (x : Slot) : (s.setSlot k x).handsOver u := State.handsOver_of_mc h rfl

/-! ## Allocation without a fill (R37, R38, R59) -/

theorem State.unlist_poison (s : State) (b : Bucket) :
    (s.unlist b).bc.poison = s.bc.poison.filter fun e => e.bucket != b := by
  unfold State.unlist
  split
  case isTrue => simp
  case isFalse unlisted =>
    symm
    rw [List.filter_eq_self]
    simpa [State.listed] using unlisted

theorem State.unlist_policy (s : State) (b : Bucket) : (s.unlist b).bc.policy = s.bc.policy := by
  unfold State.unlist
  split <;> simp

theorem State.unlist_counters (s : State) (b : Bucket) :
    (s.unlist b).ec.counters = s.ec.counters := by
  unfold State.unlist
  split <;> simp

/-- The image that a request without a fill writes (R37, R38). -/
def Kind.wholeImage (kind : Kind) (im : Image) : Image :=
  if kind = .repair then Image.repaired else im.normalForm

/-- A request of context `c` that writes a whole image, made from `im` (R37, R38, R59). -/
def Context.writesWhole (c : Context) (im : Image) : Prop :=
  (c.request.kind = .rawWrite ∧ c.image = some im) ∨ c.request.kind = .repair

theorem Context.writesWhole.replacesImage {c : Context} {im : Image} (h : c.writesWhole im) :
    c.request.kind.replacesImage = true := by
  rcases h with ⟨h, -⟩ | h <;> rw [h] <;> rfl

theorem Context.writesWhole.tableStep {c : Context} {im : Image} (h : c.writesWhole im)
    (old : Image) : tableStep c old =
      finalStep c (c.request.kind.wholeImage im) true (.bare .done) := by
  rcases h with ⟨h, image⟩ | h
  · simp [Machine.tableStep, h, rawWriteStep, image, Kind.wholeImage]
  · simp [Machine.tableStep, h, repairStep, Kind.wholeImage]

theorem State.stepOn_whole {s : State} {i : SetId} {w : Way} {k : SlotId} {c : Context} {im : Image}
    (context : (s.slot k).context = some c) (whole : c.writesWhole im) :
    s.stepOn i w k = ((s.unlist c.bucket).touch i w).applyStep i w k c.request.kind
      (finalStep c (c.request.kind.wholeImage im) true (.bare .done)) := by
  have same : (s.unlist c.bucket).modifySlot k (fun x => { x with context := some c })
      = s.unlist c.bucket := by
    refine State.setSlot_self ?_
    rw [State.slot_of_rt (s.unlist_rt _), ← context]
  simp only [State.stepOn, context, whole.tableStep, whole.replacesImage, if_true]
  exact congrArg (fun t : State => (t.touch i w).applyStep i w k c.request.kind
    (finalStep c (c.request.kind.wholeImage im) true (.bare .done))) same

end Sys2Proof.Machine
end


section
/-! A line given to a request that needs no fill (R37, R38, R59), and the completion of a line's
write (R57, R61, R70 to R72, R75, R115, R120). -/

namespace Sys2Proof.Machine

/-! ## A request that writes a whole image takes a line (R59) -/

/-- A line just allocated without a fill (R59). -/
def Line.whole (b : Bucket) : Line := { Line.empty with state := .clean, tag := some b }

/-- The state in which way `w` of set `i` stands ready for the step of a request that writes the
whole image of bucket `b` (R59). -/
def State.readyWhole (s : State) (i : SetId) (w : Way) (b : Bucket) : State :=
  ((((s.unlist b).setLine i w (.whole b)).touch i w).unlist b).touch i w

theorem State.readyWhole_line (s : State) (i : SetId) (w : Way) (b : Bucket) :
    (s.readyWhole i w b).line i w = .whole b ∧ s.onlyLine (s.readyWhole i w b) i w := by
  have stands : ∀ (j : SetId) (v : Way), (s.readyWhole i w b).line j v
      = ((s.unlist b).setLine i w (.whole b)).line j v := fun j v => by
    rw [State.readyWhole, State.line_touch, State.line_of_bc (State.unlist_sets _ b),
      State.line_touch]
  refine ⟨(stands i w).trans (State.line_setLine_self _ i w _), fun j v other => ?_⟩
  rw [stands, State.line_setLine_of_ne _ _ other, State.line_of_bc (State.unlist_sets s b)]

theorem State.readyWhole_set (s : State) (i : SetId) (w : Way) (b : Bucket) :
    ((s.readyWhole i w b).cacheSet i).order.getLast? = some w
      ∧ ((s.readyWhole i w b).cacheSet i).waiting = (s.cacheSet i).waiting := by
  rw [State.readyWhole, State.touch_order_self, State.touch_waiting,
    State.cacheSet_of_sets (State.unlist_sets _ b), State.touch_waiting, State.setLine_waiting,
    State.cacheSet_of_sets (State.unlist_sets s b)]
  simp

theorem State.readyWhole_poison (s : State) (i : SetId) (w : Way) (b : Bucket) :
    (s.readyWhole i w b).bc.poison = s.bc.poison.filter fun e => e.bucket != b := by
  have unlisted : (((s.unlist b).setLine i w (.whole b)).touch i w).bc.poison
      = s.bc.poison.filter fun e => e.bucket != b := s.unlist_poison b
  refine (State.unlist_poison _ b).trans ?_
  rw [unlisted, List.filter_filter]
  simp

theorem State.readyWhole_frame (s : State) (i : SetId) (w : Way) (b : Bucket) :
    (s.readyWhole i w b).mc = s.mc ∧ (s.readyWhole i w b).rt = s.rt
      ∧ (s.readyWhole i w b).ec.counters = s.ec.counters
      ∧ (s.readyWhole i w b).bc.policy = s.bc.policy :=
  ⟨by simp [State.readyWhole], by simp [State.readyWhole],
    (State.unlist_counters (((s.unlist b).setLine i w (.whole b)).touch i w) b).trans
      (s.unlist_counters b),
    (State.unlist_policy (((s.unlist b).setLine i w (.whole b)).touch i w) b).trans
      (s.unlist_policy b)⟩

theorem State.allocate_of_whole {s : State} {k : SlotId} {c : Context} {im : Image}
    (context : (s.slot k).context = some c) (whole : c.writesWhole im) (i : SetId) (w : Way) :
    s.allocate i w k = (s.readyWhole i w c.bucket).applyStep i w k c.request.kind
      (finalStep c (c.request.kind.wholeImage im) true (.bare .done)) := by
  have context' : ((((s.unlist c.bucket).setLine i w (.whole c.bucket)).touch i w).slot k).context
      = some c := by
    rw [State.slot_of_rt (s := s) (by simp), context]
  rw [State.allocate, State.needsNoFill_of_context context, if_pos whole.replacesImage,
    State.visitBucket_of_context context]
  exact State.stepOn_whole context' whole

theorem State.openRow_of_mc {s t : State} (h : t.mc = s.mc) (b : Bucket) :
    t.openRow b = s.openRow b := by
  simp only [State.openRow, State.bank, h]

/-- A request that writes a whole image is given a line, and its step executes (R37, R38, R59). -/
theorem State.takesWhole_allocate {s : State} {k : SlotId} {c : Context} {im : Image}
    (context : (s.slot k).context = some c) (whole : c.writesWhole im) (i : SetId) (w : Way) :
    ∃ t tasks, s.allocate i w k = (t, tasks) ∧ s.takesWhole t tasks i w k c im := by
  obtain ⟨line, others⟩ := s.readyWhole_line i w c.bucket
  obtain ⟨last, waiting⟩ := s.readyWhole_set i w c.bucket
  obtain ⟨mc, rt, counters, policy⟩ := s.readyWhole_frame i w c.bucket
  have poison := s.readyWhole_poison i w c.bucket
  have tag : ((s.readyWhole i w c.bucket).line i w).tag = some c.bucket := by rw [line]; rfl
  have treatment := State.throughTreatment_iff (s.readyWhole i w c.bucket) c.request.kind c.bucket
  rw [policy, State.openRow_of_mc mc] at treatment
  rw [State.allocate_of_whole context whole]
  generalize s.readyWhole i w c.bucket = x at *
  by_cases through : x.throughTreatment c.request.kind c.bucket = true
  · have writes := State.handsLine_modifyThrough (s := x) (.inl (by rw [line]; rfl)) k
      (c.request.kind.wholeImage im)
    rw [line] at writes
    rw [State.applyStep_through rfl rfl (by rw [tag]; exact through)]
    refine ⟨_, _, rfl, others.trans writes.onlyLine, writes.poison.trans poison, ?_, ?_,
      fun back => absurd (treatment.mp through) back, fun _ => ⟨rfl, writes.line, ?_, ?_,
        State.handsOver_setSlot writes.handsOver k _, ?_⟩⟩
    · exact (congrArg List.getLast? writes.order).trans last
    · exact writes.waiting.trans waiting
    · exact (State.slot_modifySlot_self _ k _).trans (congrArg (fun y : Slot =>
        { y with state := .awaitingWrite, result := some (.bare .done) })
        (State.slot_of_rt (writes.rt.trans rt) k))
    · exact (State.onlySlot_of_rt (writes.rt.trans rt) k).trans (State.onlySlot_setSlot _ k _)
    · exact (congrArg EngineControl.counters writes.ec).trans (congrArg Counters.through counters)
  · rw [State.applyStep_back rfl rfl (by rw [tag]; exact through), line]
    refine ⟨_, _, rfl, others.trans (State.onlyLine_setLine _ i w _), poison, ?_, ?_,
      fun _ => ⟨rfl, mc, counters, rt, State.line_setLine_self _ i w _⟩,
      fun is => absurd (treatment.mpr is) through⟩
    · rw [State.setLine_order, last]
    · rw [State.setLine_waiting, waiting]

/-- What a line held before does not matter to a request that writes it whole. -/
theorem State.takesWhole_setLine {s t : State} {tasks : List Task} {i : SetId} {w : Way}
    {k : SlotId} {c : Context} {im : Image} (l : Line)
    (h : (s.setLine i w l).takesWhole t tasks i w k c im) : s.takesWhole t tasks i w k c im := by
  obtain ⟨others, poison, last, waiting, back, through⟩ := h
  exact ⟨(State.onlyLine_setLine s i w l).trans others, poison, last,
    waiting.trans (State.setLine_waiting s i i w l), back, through⟩

/-! ## The completion of a line's write (R57, R61, R70 to R72) -/

theorem State.writeCompleted_of_discard {s : State} {i : SetId} {w : Way}
    (inFlight : (s.line i w).inFlight) (discard : s.ec.sweep.phase = .discard) :
    s.writeCompleted i w = ((s.setLine i w .empty).checkDiscard, []) := by
  rw [State.writeCompleted, if_pos (by simpa [Line.inFlight] using inFlight),
    if_pos (by rwa [State.discarding_iff])]

/-- A claimed line is retagged for its claimant (R57, R72). -/
theorem State.writeCompleted_of_claim {s : State} {i : SetId} {w : Way} {k : SlotId}
    (inFlight : (s.line i w).inFlight) (discard : s.ec.sweep.phase ≠ .discard)
    (claim : (s.line i w).claim = some k) : s.writeCompleted i w =
      (((s.setLine i w { s.line i w with claim := none }).allocate i w k).1,
        ((s.setLine i w { s.line i w with claim := none }).allocate i w k).2 ++ [.retry i]) := by
  rw [State.writeCompleted, if_pos (by simpa [Line.inFlight] using inFlight),
    if_neg (by rwa [State.discarding_iff]), claim]
  rfl

theorem State.writeCompleted_of_writing {s : State} {i : SetId} {w : Way}
    (writing : (s.line i w).state = .writing) (discard : s.ec.sweep.phase ≠ .discard)
    (claim : (s.line i w).claim = none) : s.writeCompleted i w =
      (s.setLine i w { s.line i w with state := .clean },
        (s.line i w).current.map (.leaveList i w) ++ [.retry i, .flushCheck]) := by
  rw [State.writeCompleted, if_pos (by simp [writing]), if_neg (by rwa [State.discarding_iff]),
    claim]
  simp only [writing, beq_self_eq_true, if_true, State.releaseList, claim]

theorem State.writeCompleted_of_rewrite {s : State} {i : SetId} {w : Way}
    (rewriting : (s.line i w).state = .rewrite) (discard : s.ec.sweep.phase ≠ .discard)
    (claim : (s.line i w).claim = none) : s.writeCompleted i w =
      (s, (s.line i w).current.map (.leaveList i w) ++ [.lookNext i w]) := by
  rw [State.writeCompleted, if_pos (by simp [rewriting]), if_neg (by rwa [State.discarding_iff]),
    claim]
  exact if_neg (by simp [rewriting])

/-- A line that no write of its own is in flight for takes no completion. -/
theorem State.writeCompleted_of_other {s : State} {i : SetId} {w : Way}
    (other : ¬(s.line i w).inFlight) : s.writeCompleted i w = (s, []) := by
  rw [State.writeCompleted, if_neg (by simpa [Line.inFlight] using other)]

/-! ### Whether the controller accepts accesses does not change -/

theorem State.endSweep_accepting (s : State) : s.endSweep.mc.accepting = s.mc.accepting := by simp

theorem State.checkDiscard_accepting (s : State) :
    s.checkDiscard.mc.accepting = s.mc.accepting := by
  unfold State.checkDiscard
  split
  · split
    · exact (State.HandsOn.pumpSweep _ _).accepting
    · simp
  · rfl

theorem State.applyStep_accepting (s : State) (i : SetId) (w : Way) (k : SlotId) (kind : Kind)
    (out : StepResult) : (s.applyStep i w k kind out).1.mc.accepting = s.mc.accepting := by
  have through : (s.modifyThrough i w k out.image).mc.accepting = s.mc.accepting := by
    unfold State.modifyThrough
    split <;> simp [State.handLineWrite]
  unfold State.applyStep
  repeat' split
  all_goals simp [through, State.modifyBack]

theorem State.allocate_accepting (s : State) (i : SetId) (w : Way) (k : SlotId) :
    (s.allocate i w k).1.mc.accepting = s.mc.accepting := by
  unfold State.allocate
  split
  · unfold State.allocateWhole State.stepOn
    split
    · rw [State.applyStep_accepting]
      split <;> simp
    · simp
  · simp [State.allocateFill]

theorem State.writeCompleted_accepting (s : State) (i : SetId) (w : Way) :
    (s.writeCompleted i w).1.mc.accepting = s.mc.accepting := by
  by_cases inFlight : (s.line i w).inFlight
  case neg => rw [State.writeCompleted_of_other inFlight]
  by_cases discard : s.ec.sweep.phase = .discard
  · rw [State.writeCompleted_of_discard inFlight discard, State.checkDiscard_accepting]
    rfl
  cases claim : (s.line i w).claim with
  | some k =>
    rw [State.writeCompleted_of_claim inFlight discard claim, State.allocate_accepting]
    rfl
  | none =>
    rcases inFlight with writing | rewriting
    · rw [State.writeCompleted_of_writing writing discard claim]
      rfl
    · rw [State.writeCompleted_of_rewrite rewriting discard claim]

/-! ### The event -/

/-- The completion of a line's write, as an event with its consequences still to be taken: `u` is
the state in which the access has left its queue. -/
theorem exec_writeCompleted {s u : State} {age : Nat} {b : BankId} {a : Access} {i : SetId}
    {w : Way}
    (window : s.openWindow age = some (b, a)) (live : a.orphan = false)
    (requester : a.body.requester = .line i w) (left : s.leaveQueue b age = u)
    (accepting : u.mc.accepting = true) :
    exec (.alertWaitExpiry age) s = outcomeOf (settle (u.writeCompleted i w)) := by
  have closed : s.windowClosed age = u.writeCompleted i w := by
    simp only [State.windowClosed, window, live, Bool.false_eq_true, if_false, left, requester]
    rfl
  change outcomeOf (settle (thenResume (s.windowClosed age))) = _
  rw [closed, thenResume_of_accepting ((State.writeCompleted_accepting u i w).trans accepting)]

/-- A REWRITE line whose current-write list has been released looks at its next-write list (R71). -/
theorem State.lookAtNext_of_next {s : State} {i : SetId} {w : Way}
    (rewriting : (s.line i w).state = .rewrite) (next : (s.line i w).next ≠ []) :
    s.lookAtNext i w = (((s.setLine i w { s.line i w with
      state := .writing, current := (s.line i w).next, next :=
        [] }).count .through).handLineWrite i w,
        []) := by
  simp only [State.lookAtNext, rewriting, beq_self_eq_true, if_true]
  exact if_pos (by simp [next])

theorem State.lookAtNext_of_flush {s : State} {i : SetId} {w : Way}
    (rewriting : (s.line i w).state = .rewrite) (next : (s.line i w).next = [])
    (flush : s.bc.flush.isSome = true) : s.lookAtNext i w =
      (((s.setLine i w { s.line i w with state := .writing }).count id).handLineWrite i w, []) := by
  simp only [State.lookAtNext, rewriting, beq_self_eq_true, if_true]
  exact (if_neg (by simp [next])).trans (if_pos flush)

theorem State.lookAtNext_of_none {s : State} {i : SetId} {w : Way}
    (rewriting : (s.line i w).state = .rewrite) (next : (s.line i w).next = [])
    (flush : s.bc.flush = none) : s.lookAtNext i w =
      (s.setLine i w { s.line i w with state := .dirty }, [.retry i]) := by
  simp only [State.lookAtNext, rewriting, beq_self_eq_true, if_true]
  exact (if_neg (by simp [next])).trans (if_neg (by simp [flush]))

/-- Settles O42: the event, the place it frees, and the completion case by case. -/
theorem alertWaitExpiryCompletesTheWrite : Obligations.AlertWaitExpiryCompletesTheWrite := by
  refine ⟨fun s age b a i w window live requester writing claim current waiting flush idle waits
    accepting law => ?alone, fun s age b a i w window live requester accepting =>
      ⟨fun none => ?free, fun pre v post waits younger here other room => ?taken⟩,
    fun s i w => ⟨fun discard => ⟨fun writing claim => ?writing, fun rewriting claim => ?rewrite,
      fun k c im writing claim context whole => ?whole, fun k writing claim fills => ?fill⟩,
      fun k => rfl, fun rewriting => ⟨fun next => ?next, fun next flush => ?flush,
        fun next flush => ?dirty⟩, fun other => ?other, fun discard inFlight busy => ?discards,
      fun last inFlight => ?lastLine⟩⟩
  case alone =>
    have only := State.onlyController.dropAccess s b age
    have stands : (s.dropAccess b age).line i w = s.line i w :=
        State.line_of_onlyController only i w
    have event := exec_writeCompleted window live requester
      (State.leaveQueue_of_none (by simp [waits]) age) accepting
    rw [State.writeCompleted_of_writing (by rw [stands, writing]) (by rw [only.ec, idle]; simp)
      (by rw [stands, claim]), stands, current] at event
    have unwaited : ((s.dropAccess b age).setLine i w
        { s.line i w with state := .clean }).retrySet i
        = (_, []) := State.retrySet_of_empty (by
      rw [State.setLine_waiting]
      exact waiting)
    have unflushed : ((s.dropAccess b age).setLine i w
        { s.line i w with state := .clean }).checkFlush
        = (_, []) := State.checkFlush_of_none flush
    refine ⟨(s.dropAccess b age).setLine i w { s.line i w with state := .clean }, event.trans ?_,
      State.line_setLine_self _ i w _, ?_, s.queue_dropAccess_self b age,
      s.onlyBank_dropAccess b age,
      only.bi, only.ec, only.cu, only.rt, only.tl, rfl⟩
    · simp only [settle, cascadeBound_eq, List.map_nil, List.nil_append, runTasks_cons, runTask,
        unwaited, unflushed, runTasks_nil, Option.map_some, outcomeOf_some]
      exact congrArg Host.Outcome.next (State.closeEvent_of_ec law rfl rfl rfl)
    · exact (State.onlyLine_of_sets (by rw [only.bc]) i w).trans (State.onlyLine_setLine _ i w _)
  case free =>
    exact ⟨s.dropAccess b age, exec_writeCompleted window live requester
      (State.leaveQueue_of_none none age) accepting, State.onlyController.dropAccess s b age,
      s.onlyBank_dropAccess b age, rfl, s.queue_dropAccess_self b age⟩
  case taken =>
    obtain ⟨queue, banks⟩ := s.bank_takePlace age (pre ++ post) here
    exact ⟨s.takePlace b age (pre ++ post) v, exec_writeCompleted window live requester
      ((State.leaveQueue_of_waiting waits younger here accepting room).trans (if_neg other))
        accepting,
      State.onlyController.takePlace s b age _ v, banks, rfl, queue⟩
  case writing => exact State.writeCompleted_of_writing writing discard claim
  case rewrite => exact State.writeCompleted_of_rewrite rewriting discard claim
  case whole =>
    obtain ⟨t, tasks, given, takes⟩ := State.takesWhole_allocate
      (s := s.setLine i w { s.line i w with claim := none }) context whole i w
    refine ⟨t, tasks, ?_, State.takesWhole_setLine _ takes⟩
    rw [State.writeCompleted_of_claim (.inl writing) discard claim, given]
  case fill =>
    have given := (s.setLine i w { s.line i w with claim := none }).fillsFor_allocateFill i w k
      (s.visitBucket k)
    refine ⟨(s.setLine i w { s.line i w with claim := none }).allocateFill i w k
      (s.visitBucket k), ?_,
      (State.onlyLine_setLine s i w _).trans given.onlyLine, given.rt, given.line.trans ?_,
      given.waiting.trans ?_, given.order.trans ?_, given.handsOver,
      congrArg EngineControl.counters given.ec⟩
    · rw [State.writeCompleted_of_claim (.inl writing) discard claim]
      have fills' : (s.setLine i w { s.line i w with claim := none }).needsNoFill k = false := fills
      rw [State.allocate, fills']
      rfl
    · rw [State.setLine_waiting]
      rfl
    · rw [State.setLine_waiting]
      rfl
    · rw [State.setLine_order]
  case next =>
    have writes := State.HandsLine.of_count s i w { s.line i w with
      state := .writing, current := (s.line i w).next, next := [] } .through
    exact ⟨_, State.lookAtNext_of_next rewriting next, writes.onlyLine, writes.rt, writes.handsOver,
      writes.line, congrArg EngineControl.counters writes.ec⟩
  case flush =>
    have writes := State.HandsLine.of_count s i w { s.line i w with state := .writing } id
    exact ⟨_, State.lookAtNext_of_flush rewriting next flush, writes.onlyLine, writes.rt,
      writes.handsOver, writes.line, writes.ec⟩
  case dirty => exact State.lookAtNext_of_none rewriting next flush
  case other =>
    change s.lookAtNext i w = _
    rw [State.lookAtNext]
    exact if_neg (by simpa using other)
  case discards =>
    rw [State.writeCompleted_of_discard inFlight discard, State.checkDiscard_setLine_of_busy _ busy]
  case lastLine =>
    exact ⟨_, State.writeCompleted_of_discard inFlight last.1, State.endsDiscard_of_last last⟩

end Sys2Proof.Machine
end


section
/-! The ends of status writes (R170, R171) and the layout of the status block (R168, R176). -/

namespace Sys2Proof.Machine

/-! ## The status write of an event (R169, R171) -/

/-- An owed block is written at the event's end, at the known address (R169). -/
theorem State.closeEvent_issues {u : State} {addr : Addr} (owed : u.ec.status.owed = .now)
    (known : u.ec.statusAddr = some addr) (free : u.ec.status.outstanding = none)
    (unheld : ¬(u.ec.engine = .stalled ∧ u.ec.status.stallReportIssued = true)) :
    u.closeEvent.ec.status = ⟨.nothing, 0, u.ec.status.waitingCauses, some u.bi.nextTag,
        u.ec.status.stallReportIssued || u.ec.engine == .stalled⟩
      ∧ u.closeEvent.hasIssued .statusWrite addr u.closeEvent.statusBlock.length
          u.closeEvent.statusBlock := by
  have unheld' : (u.ec.engine == .stalled && u.ec.status.stallReportIssued) = false := by
    rw [Bool.and_eq_false_iff, beq_eq_false_iff_ne, ← Bool.not_eq_true]
    exact not_and_or.mp unheld
  have due : u.statusDue = true := by simp [State.statusDue, owed, known, free, unheld']
  constructor
  · rw [State.closeEvent_of_due due]
    rfl
  · rw [State.closeEvent_statusBlock, State.closeEvent_of_due due]
    simp only [State.issueStatus, known, Option.getD_some]
    exact u.hasIssued_issueWrite .statusWrite addr u.statusBlock

/-- A block that is not owed at once is not written. -/
theorem State.closeEvent_of_not_owed {u : State} (h : u.ec.status.owed ≠ .now) :
    u.closeEvent = u :=
  State.closeEvent_eq_self (by simp [State.statusDue, h])

/-- Nothing is written in a stall whose report has issued (R169). -/
theorem State.closeEvent_of_reported {u : State} (stalled : u.ec.engine = .stalled)
    (issued : u.ec.status.stallReportIssued = true) : u.closeEvent = u :=
  State.closeEvent_eq_self (by simp [State.statusDue, stalled, issued])

/-! ## The ends of status writes (R170, R171) -/

/-- The state in which a status write has ended with or without a fault: its causes are set. -/
def State.statusShown (s : State) (tag : Nat) (fault : Bool) : State :=
  { (s.endAccess tag).setAttached with
    ec := { (s.endAccess tag).setAttached.ec with statusWriteFault := fault } }

theorem State.statusShown_ec (s : State) (tag : Nat) (fault : Bool) :
    (s.statusShown tag fault).ec = { s.ec with
      intCause := s.ec.intCause ||| s.ec.status.attachedCauses, statusWriteFault := fault
      status := { s.ec.status with attachedCauses := 0, outstanding := none } } := rfl

/-- A stall entered for a fault of the status write itself: its report issues at once (R163, R170).
-/
theorem State.closeEvent_enterStall {u : State} {addr : Addr} (known : u.ec.statusAddr = some addr)
    (free : u.ec.status.outstanding = none) (r : ResumeState) (host bad : Bool) :
    (u.enterStall r host bad).closeEvent.ec.status = ⟨.nothing, 0,
        u.ec.status.waitingCauses ||| causeStall, some u.bi.nextTag, true⟩ := by
  have known' : ((u.setStallCauses host bad).ec.statusAddr) = some addr := by simpa using known
  have entered : (u.enterStall r host bad).ec.status =
      ⟨.now, u.ec.status.waitingCauses ||| causeStall,
      u.ec.status.attachedCauses, none, false⟩ := by
    simp [State.enterStall, State.statusUpdate, State.raise, known, State.setStallCauses, free]
  obtain ⟨status, -⟩ := State.closeEvent_issues (u := u.enterStall r host bad) (addr := addr)
    (by rw [entered]) (by simpa [State.enterStall] using known) (by rw [entered])
    (by rw [entered]; simp)
  rw [status, entered]
  simp [State.enterStall]

theorem exec_statusWriteCompletion {s : State} {tag : Nat} {a : BusAccess} (h : s.awaits tag a)
    (kind : a.kind = .statusWrite) : exec (.statusWriteCompletion tag) s =
      .next (s.statusShown tag false).closeEvent :=
  congrArg (fun u : State => Host.Outcome.next u.closeEvent)
    (State.onStatusEnd_of_awaits h kind State.statusWritten)

theorem exec_statusWriteFault {s : State} {tag : Nat} {a : BusAccess} (h : s.awaits tag a)
    (kind : a.kind = .statusWrite) : exec (.statusWriteFault tag) s =
      .next (s.endAccess tag).statusFaulted.closeEvent :=
  congrArg (fun u : State => Host.Outcome.next u.closeEvent)
    (State.onStatusEnd_of_awaits h kind State.statusFaulted)

/-- What a status write's fault does, by the engine's state (R170). -/
theorem State.statusFaulted_cases (s : State) (tag : Nat) :
    (s.ec.engine = .running → (s.endAccess tag).statusFaulted =
        (s.statusShown tag true).enterStall .running true false)
      ∧ (s.ec.engine = .stopping → s.ec.ending = .stop → (s.endAccess tag).statusFaulted =
        (s.statusShown tag true).enterStall .stopping true false)
      ∧ (s.ec.engine ≠ .running → ¬(s.ec.engine = .stopping ∧ s.ec.ending = .stop) →
        (s.endAccess tag).statusFaulted =
          if s.ec.engine = .stalled ∧ s.ec.status.stallReportIssued = true then
            s.statusShown tag true
          else (s.statusShown tag true).oweLater) := by
  have faulted : (s.endAccess tag).statusFaulted =
      if (s.statusShown tag true).mayIssue then (s.statusShown tag true).reportHostFault
      else if (s.statusShown tag true).ec.engine == .stalled
          && (s.statusShown tag true).ec.status.stallReportIssued then s.statusShown tag true
      else (s.statusShown tag true).oweLater := rfl
  rw [faulted]
  refine ⟨fun running => ?_, fun stopping ending => ?_, fun notRunning notStop => ?_⟩
  · simp [State.mayIssue, State.reportHostFault, State.reportStall, State.statusShown_ec, running]
  · simp [State.mayIssue, State.reportHostFault, State.reportStall, State.statusShown_ec, stopping,
      ending]
  · have may : (s.statusShown tag true).mayIssue = false := by
      simpa [State.mayIssue, State.statusShown_ec, notRunning] using notStop
    simp [may, State.statusShown_ec]

theorem State.enterStall_intCause_of_known {s : State} (known : s.ec.statusAddr.isSome = true)
    (r : ResumeState) (host bad : Bool) : (s.enterStall r host bad).ec.intCause =
    s.ec.intCause := by
  rw [State.enterStall, State.raise_intCause_of_some _ _ (by simpa using known)]
  simp

/-- The fault of a status write moves the Engine Control alone. -/
theorem State.statusFaulted_frame (s : State) (tag : Nat) :
    (s.endAccess tag).statusFaulted =
      { s.endAccess tag with ec := (s.endAccess tag).statusFaulted.ec } := by
  obtain ⟨running, stopping, elsewhere⟩ := s.statusFaulted_cases tag
  have stalls : ∀ r, (s.statusShown tag true).enterStall r true false = { s.endAccess tag with
      ec := ((s.statusShown tag true).enterStall r true false).ec } := fun r => by
    apply State.ext <;> simp [State.enterStall, State.statusShown]
  by_cases isRunning : s.ec.engine = .running
  · rw [running isRunning]
    exact stalls _
  by_cases isStop : s.ec.engine = .stopping ∧ s.ec.ending = .stop
  · rw [stopping isStop.1 isStop.2]
    exact stalls _
  rw [elsewhere isRunning isStop]
  split
  · rfl
  · unfold State.oweLater
    split <;> rfl

/-- What the fault of a status write leaves of the Engine Control. -/
theorem State.statusFaulted_ec {s : State} (known : s.ec.statusAddr.isSome = true) (tag : Nat) :
    let u := (s.endAccess tag).statusFaulted
    u.ec = { s.ec with
      engine := u.ec.engine, ending := u.ec.ending, resumeState := u.ec.resumeState,
      stallHostFault := u.ec.stallHostFault, statusWriteFault := true,
      intCause := s.ec.intCause ||| s.ec.status.attachedCauses, status := u.ec.status } := by
  obtain ⟨running, stopping, elsewhere⟩ := s.statusFaulted_cases tag
  have stalls : ∀ r, let u := (s.statusShown tag true).enterStall r true false
      u.ec = { s.ec with
        engine := u.ec.engine, ending := u.ec.ending, resumeState := u.ec.resumeState,
        stallHostFault := u.ec.stallHostFault, statusWriteFault := true,
        intCause := s.ec.intCause ||| s.ec.status.attachedCauses, status := u.ec.status } := by
    intro r u
    have cause : u.ec.intCause = _ := State.enterStall_intCause_of_known
      (s := s.statusShown tag true) known r true false
    apply EngineControl.ext
    case intCause => exact cause
    all_goals simp [u, State.enterStall, State.setStallCauses, State.statusShown_ec]
  intro u
  by_cases isRunning : s.ec.engine = .running
  · rw [show u = _ from running isRunning]
    exact stalls _
  by_cases isStop : s.ec.engine = .stopping ∧ s.ec.ending = .stop
  · rw [show u = _ from stopping isStop.1 isStop.2]
    exact stalls _
  rw [show u = _ from elsewhere isRunning isStop]
  split
  · rfl
  · unfold State.oweLater
    split <;> rfl

theorem State.oweLater_of_now {s : State} (h : s.ec.status.owed = .now) : s.oweLater = s := by
  simp [State.oweLater, h]

theorem State.oweLater_of_not_now {s : State} (h : s.ec.status.owed ≠ .now) : s.oweLater =
    { s with ec := { s.ec with status := { s.ec.status with owed := .atNextUpdate } } } := by
  simp [State.oweLater, h]

/-- Settles O36: by the engine's state. -/
theorem statusWriteFaultByState : Obligations.StatusWriteFaultByState := by
  intro s tag a awaited kind known
  obtain ⟨running, stopping, elsewhere⟩ := s.statusFaulted_cases tag
  have ec := State.statusFaulted_ec known tag
  have frame := s.statusFaulted_frame tag
  obtain ⟨addr, isAddr⟩ := Option.isSome_iff_exists.mp known
  have bi : (s.endAccess tag).statusFaulted.bi = (s.endAccess tag).bi := by rw [frame]
  refine ⟨_, exec_statusWriteFault awaited kind, ?_, by rw [State.closeEvent_cu, frame]; rfl,
    State.sameTablePath.close (by rw [frame]; exact ⟨rfl, rfl, rfl, rfl⟩),
    State.endsAccess.close (State.endsAccess_of_eq (by rw [bi])),
    (State.addsOnly_of_endAccess_eq tag (by rw [bi])).close,
    State.sameWindow.close ⟨by rw [bi]; rfl, by rw [bi]; rfl, by rw [ec], by rw [frame]; rfl⟩,
    fun isRunning => ?_, fun isStopping isStop => ?_, fun isStalled issued => ?_,
    fun notRunning notStop => ?_⟩
  · apply EngineControl.ext <;> simp
    all_goals rw [ec]
  · rw [running isRunning, State.closeEvent_enterStall (u := s.statusShown tag true) isAddr rfl]
    simp [State.enterStall, State.setStallCauses, State.statusShown_ec, causeStall]
  · rw [stopping isStopping isStop, State.closeEvent_enterStall (u := s.statusShown tag true)
      isAddr rfl]
    simp [State.enterStall, State.setStallCauses, State.statusShown_ec, causeStall]
  · rw [elsewhere (by simp [isStalled]) (by simp [isStalled]), if_pos ⟨isStalled, issued⟩,
      State.closeEvent_of_reported (u := s.statusShown tag true) isStalled issued]
    exact ⟨isStalled, rfl⟩
  · rw [elsewhere notRunning notStop]
    split
    case isTrue reported =>
      rw [State.closeEvent_of_reported (u := s.statusShown tag true) reported.1 reported.2]
      exact ⟨rfl, rfl, rfl, rfl, fun _ _ => ⟨rfl, rfl⟩, fun unreported =>
        absurd reported unreported⟩
    case isFalse unreported =>
      by_cases owed : s.ec.status.owed = .now
      · rw [State.oweLater_of_now (s := s.statusShown tag true) owed]
        refine ⟨by simp [State.statusShown_ec], by simp [State.statusShown_ec],
          by simp [State.statusShown_ec], by simp [State.statusShown_ec],
          fun stalled issued => absurd ⟨stalled, issued⟩ unreported,
          fun _ => ⟨fun addr' _ isAddr' => ?_, fun other => absurd owed other⟩⟩
        obtain ⟨status, issued⟩ := State.closeEvent_issues (u := s.statusShown tag true)
            owed isAddr'
          rfl unreported
        exact ⟨issued, status⟩
      · rw [State.oweLater_of_not_now (s := s.statusShown tag true) owed,
          State.closeEvent_of_not_owed (by simp)]
        exact ⟨rfl, rfl, rfl, rfl, fun stalled issued => absurd ⟨stalled, issued⟩ unreported,
          fun _ => ⟨fun _ now => absurd now owed, fun _ => ⟨rfl, rfl⟩⟩⟩

end Sys2Proof.Machine
end


section
/-! The layout of the status block (R168, R176), field by field. -/

namespace Sys2Proof.Machine

/-! ## Little-endian numbers (R175) -/

/-- The number that bytes spell, least significant first. -/
def littleEndian (l : List Byte) : Nat := l.foldr (fun b x => b.toNat + 256 * x) 0

@[simp] theorem littleEndian_nil : littleEndian [] = 0 := rfl

@[simp] theorem littleEndian_cons (b : Byte) (l : List Byte) :
    littleEndian (b :: l) = b.toNat + 256 * littleEndian l := rfl

theorem littleEndian_append (l m : List Byte) :
    littleEndian (l ++ m) = littleEndian l + 256 ^ l.length * littleEndian m := by
  induction l with
  | nil => simp
  | cons b l ih =>
    rw [List.cons_append, littleEndian_cons, littleEndian_cons, ih, List.length_cons, pow_succ]
    ring

theorem bytesOf_succ {w : Nat} (n : Nat) (x : BitVec w) :
    bytesOf (n + 1) x = bytesOf n x ++ [x.extractLsb' (8 * n) 8] := by
  simp [bytesOf, List.range_succ]

@[simp] theorem length_bytesOf {w : Nat} (n : Nat) (x : BitVec w) : (bytesOf n x).length = n := by
  simp [bytesOf]

theorem littleEndian_bytesOf {w : Nat} (n : Nat) (x : BitVec w) :
    littleEndian (bytesOf n x) = x.toNat % 2 ^ (8 * n) := by
  induction n with
  | zero => simp [bytesOf, Nat.mod_one]
  | succ n ih =>
    have byte : (256 : Nat) ^ n = 2 ^ (8 * n) := by norm_num [pow_mul]
    rw [bytesOf_succ, littleEndian_append, ih, length_bytesOf, byte, littleEndian_cons,
      littleEndian_nil, toNat_extractLsb', Nat.mul_succ, pow_add, Nat.mod_mul]
    simp

theorem littleEndian_numberBytes (n x : Nat) :
    littleEndian (numberBytes n x) = x % 2 ^ (8 * n) := by
  rw [numberBytes, littleEndian_bytesOf, BitVec.toNat_ofNat, Nat.mod_mod]

theorem littleEndian_numberBytes_of_lt {x : Nat} (h : x < 256) :
    littleEndian (numberBytes 1 x) = x := by
  rw [littleEndian_numberBytes]
  exact Nat.mod_eq_of_lt h

theorem littleEndian_bytesOf_eight (x : BitVec 64) : littleEndian (bytesOf 8 x) = x.toNat := by
  rw [littleEndian_bytesOf]
  exact Nat.mod_eq_of_lt x.isLt

@[simp] theorem littleEndian_zeroBytes (n : Nat) : littleEndian (zeroBytes n) = 0 := by
  induction n with
  | zero => rfl
  | succ n ih =>
    rw [zeroBytes, List.replicate_succ, littleEndian_cons, ← zeroBytes, ih]
    rfl

/-! ## Pieces of a byte string -/

/-- The bytes from one offset on. -/
def slice (l : List Byte) (off n : Nat) : List Byte := (l.drop off).take n

/-- In a string put together from pieces each piece stands behind those before it. -/
theorem slice_flatten {pieces : List (List Byte)} {i off n : Nat} {p : List Byte}
    (piece : pieces[i]? = some p) (before : ((pieces.take i).map List.length).sum = off)
    (size : p.length = n) : slice pieces.flatten off n = p := by
  subst before size
  have split : pieces = pieces.take i ++ p :: pieces.drop (i + 1) := by
    obtain ⟨h, rfl⟩ := List.getElem?_eq_some_iff.mp piece
    rw [← List.drop_eq_getElem_cons h, List.take_append_drop]
  conv_lhs => rw [slice]; arg 2; arg 2; rw [split]
  rw [List.flatten_append, List.flatten_cons, ← List.length_flatten, List.drop_left, List.take_left]

theorem slice_slice (l : List Byte) {a m b c : Nat} (h : b + c ≤ m) :
    slice (slice l a m) b c = slice l (a + b) c := by
  simp only [slice, List.drop_take, List.take_take, List.drop_drop]
  congr 1
  omega

/-! ## The status block -/

/-- The status block in pieces, in the order of its layout (R176). -/
def State.statusPieces (s : State) : List (List Byte) :=
  [numberBytes 1 s.ec.engine.code,
    numberBytes 1 (bit s.ec.stallHostFault + 2 * bit s.ec.stallBadBatch),
    numberBytes 1 s.ec.refusalCause.code, numberBytes 1 (bit s.ec.refusedCommand.isSome),
    [s.ec.refusedCommand.getD 0], [s.mc.laneFaults], numberBytes 1 (bit s.cu.parked), zeroBytes 1,
    numberBytes 4 (s.mc.rows.getD 0), identityBytes s.ec.identity, bytesOf 8 s.cu.retireSeq,
    bytesOf 8 s.ec.lastRetired, bytesOf 8 s.ec.counters.requestsCompleted,
    bytesOf 8 s.ec.counters.lookupsFound, bytesOf 8 s.ec.counters.fills,
    bytesOf 8 s.ec.counters.castouts, bytesOf 8 s.ec.counters.throughWrites,
    bytesOf 8 s.ec.counters.poisonings, bytesOf 8 s.ec.counters.readRetries,
    bytesOf 8 s.ec.counters.writeRetries, bytesOf 8 s.ec.counters.refreshOverruns,
    numberBytes 1 s.bc.poison.length, numberBytes 1 (bit s.bc.overflow), zeroBytes 6,
    poisonBytes s.bc.poison, zeroBytes 8]

theorem State.statusBlock_eq (s : State) : s.statusBlock = s.statusPieces.flatten := by
  simp [State.statusBlock, State.statusPieces, Counters.bytes]

/-- How long each piece is. -/
def statusLengths : List Nat :=
  [1, 1, 1, 1, 1, 1, 1, 1, 4, 12, 8, 8, 8, 8, 8, 8, 8, 8, 8, 8, 8, 1, 1, 6, 128, 8]

theorem length_identityBytes (o : Option Identity) : (identityBytes o).length = 12 := by
  cases o <;> rfl

theorem length_poisonEntry (e : PoisonEntry) : e.bytes.length = 4 := rfl

theorem length_flatMap_poison (l : List PoisonEntry) :
    (l.flatMap PoisonEntry.bytes).length = 4 * l.length := by
  induction l with
  | nil => rfl
  | cons e l ih => rw [List.flatMap_cons, List.length_append, ih, length_poisonEntry,
    List.length_cons]; omega

theorem length_poisonBytes {l : List PoisonEntry} (h : l.length ≤ 32) :
    (poisonBytes l).length = 128 := by
  rw [poisonBytes, List.length_append, length_flatMap_poison, zeroBytes, List.length_replicate]
  have limit : Config.poisonLimit = 32 := rfl
  omega

theorem State.statusPieces_lengths {s : State} (law : s.poisonLaw) :
    s.statusPieces.map List.length = statusLengths := by
  simp [State.statusPieces, statusLengths, length_identityBytes, length_poisonBytes law,
    numberBytes,
    zeroBytes]

/-- A piece of the status block stands at the sum of the lengths before it. -/
theorem State.statusBlock_piece {s : State} (law : s.poisonLaw) {i off n : Nat} {p : List Byte}
    (piece : s.statusPieces[i]? = some p) (before : (statusLengths.take i).sum = off)
    (size : statusLengths[i]? = some n) : slice s.statusBlock off n = p := by
  rw [State.statusBlock_eq]
  refine slice_flatten piece ?_ ?_
  · rw [List.map_take, State.statusPieces_lengths law, before]
  · rw [← State.statusPieces_lengths law, List.getElem?_map, piece] at size
    simpa using size

/-- The number that bytes `off` to `off + n - 1` of the status block spell. -/
def State.statusField (s : State) (off n : Nat) : Nat := littleEndian (slice s.statusBlock off n)

theorem State.statusField_of_piece {s : State} (law : s.poisonLaw) {i off n x : Nat} {p : List Byte}
    (value : littleEndian p = x) (piece : s.statusPieces[i]? = some p)
    (before : (statusLengths.take i).sum = off) (size : statusLengths[i]? = some n) :
    s.statusField off n = x := by
  rw [State.statusField, State.statusBlock_piece law piece before size, value]

/-- A field that lies within a piece, itself put together from pieces. -/
theorem State.statusField_within {s : State} (law : s.poisonLaw) {i j a m b c x : Nat}
    {pieces : List (List Byte)} {p : List Byte} (value : littleEndian p = x)
    (piece : s.statusPieces[i]? = some pieces.flatten) (before : (statusLengths.take i).sum = a)
    (size : statusLengths[i]? = some m) (part : pieces[j]? = some p)
    (skip : ((pieces.take j).map List.length).sum = b) (length : p.length = c) (fits : b + c ≤ m) :
    s.statusField (a + b) c = x := by
  rw [State.statusField, ← slice_slice _ fits, State.statusBlock_piece law piece before size,
    slice_flatten part skip length, value]

/-! ## The poison entries (R176) -/

/-- The poison entries, four bytes each, the unused ones last. -/
def poisonPieces (l : List PoisonEntry) : List (List Byte) :=
  l.map PoisonEntry.bytes ++ List.replicate (32 - l.length) (zeroBytes 4)

theorem poisonBytes_eq (l : List PoisonEntry) : poisonBytes l = (poisonPieces l).flatten := by
  have limit : Config.poisonLimit = 32 := rfl
  rw [poisonBytes, poisonPieces, List.flatten_append, List.flatMap_def, limit, zeroBytes, zeroBytes,
    List.flatten_replicate_replicate, Nat.mul_comm]

theorem length_of_mem_poisonPieces {l : List PoisonEntry} {p : List Byte}
    (h : p ∈ poisonPieces l) : p.length = 4 := by
  rcases List.mem_append.mp h with h | h
  · obtain ⟨e, -, rfl⟩ := List.mem_map.mp h
    rfl
  · rw [List.eq_of_mem_replicate h]
    rfl

theorem poisonPieces_before {l : List PoisonEntry} {i : Nat} {p : List Byte}
    (piece : (poisonPieces l)[i]? = some p) :
    (((poisonPieces l).take i).map List.length).sum = 4 * i := by
  obtain ⟨h, -⟩ := List.getElem?_eq_some_iff.mp piece
  have four : ((poisonPieces l).take i).map List.length = List.replicate i 4 := by
    refine List.eq_replicate_iff.mpr ⟨by simp; omega, fun n mem => ?_⟩
    obtain ⟨q, there, rfl⟩ := List.mem_map.mp mem
    exact length_of_mem_poisonPieces (List.mem_of_mem_take there)
  rw [four, List.sum_replicate, smul_eq_mul, Nat.mul_comm]

/-- The bytes of one poison entry, used or not. -/
theorem State.statusBlock_poison {s : State} (law : s.poisonLaw) {i : Nat} {p : List Byte}
    (piece : (poisonPieces s.bc.poison)[i]? = some p) : slice s.statusBlock (120 + 4 * i) 4 =
      p := by
  have fits : 4 * i + 4 ≤ 128 := by
    obtain ⟨h, -⟩ := List.getElem?_eq_some_iff.mp piece
    have : s.bc.poison.length ≤ 32 := law
    simp only [poisonPieces, List.length_append, List.length_map, List.length_replicate] at h
    omega
  have all : slice s.statusBlock 120 128 = poisonBytes s.bc.poison :=
    State.statusBlock_piece law (i := 24) rfl rfl rfl
  rw [← slice_slice _ fits, all, poisonBytes_eq]
  exact slice_flatten piece (poisonPieces_before piece)
    (length_of_mem_poisonPieces (List.mem_of_getElem? piece))

/-- A used entry: its bucket index and its reason. -/
theorem State.statusField_poison {s : State} (law : s.poisonLaw) {i : Nat} {e : PoisonEntry}
    (entry : s.bc.poison[i]? = some e) : s.statusField (120 + 4 * i) 3 = e.bucket % 2 ^ 24
      ∧ s.statusField (123 + 4 * i) 1 = e.reason.code := by
  have bytes : slice s.statusBlock (120 + 4 * i) 4 = e.bytes := by
    refine State.statusBlock_poison law ?_
    have used : i < s.bc.poison.length := (List.getElem?_eq_some_iff.mp entry).1
    rw [poisonPieces, List.getElem?_append_left (by simpa using used), List.getElem?_map, entry]
    rfl
  have parts : e.bytes = [numberBytes 3 e.bucket, numberBytes 1 e.reason.code].flatten := by
    simp [PoisonEntry.bytes]
  have reason : e.reason.code < 256 := by cases e.reason <;> decide
  constructor
  · rw [← Nat.add_zero (120 + 4 * i), State.statusField, ← slice_slice _ (m := 4) (by decide),
      bytes,
      parts, slice_flatten (pieces := [numberBytes 3 e.bucket, numberBytes 1 e.reason.code])
      (i := 0)
        (off := 0) (n := 3) rfl rfl rfl, littleEndian_numberBytes]
  · have place : 123 + 4 * i = 120 + 4 * i + 3 := by omega
    rw [place, State.statusField, ← slice_slice _ (m := 4) (by decide), bytes, parts,
      slice_flatten (pieces := [numberBytes 3 e.bucket, numberBytes 1 e.reason.code]) (i := 1)
        (off := 3) (n := 1) rfl rfl rfl, littleEndian_numberBytes_of_lt reason]

/-- An unused entry is zero. -/
theorem State.statusField_unused {s : State} (law : s.poisonLaw) {i : Nat} (h : i < 32)
    (unused : s.bc.poison.length ≤ i) : s.statusField (120 + 4 * i) 4 = 0 := by
  have bytes : slice s.statusBlock (120 + 4 * i) 4 = zeroBytes 4 := by
    refine State.statusBlock_poison law ?_
    rw [poisonPieces, List.getElem?_append_right (by simpa using unused), List.length_map,
      List.getElem?_replicate, if_pos (by omega)]
  rw [State.statusField, bytes, littleEndian_zeroBytes]

/-! ## The end of a status write without a fault (R171) -/

theorem bit_add_two_mul_bit (a b : Bool) : bit a + 2 * bit b
    = (if a then 1 else 0) + (if b then 2 else 0) := by
  cases a <;> cases b <;> rfl

theorem littleEndian_bit (b : Bool) : littleEndian (numberBytes 1 (bit b)) =
    if b then 1 else 0 := by
  cases b <;> decide

/-- The identity, field by field (R176). -/
theorem State.statusField_identity {s : State} (law : s.poisonLaw) {n : Identity}
    (identity : s.ec.identity = some n) : s.statusField 12 1 = 1
      ∧ s.statusField 13 1 = n.size % 256 ∧ s.statusField 14 2 = 0
      ∧ s.statusField 16 8 = n.seed.toNat := by
  have piece : s.statusPieces[9]? = some
      [[1#8], numberBytes 1 n.size, zeroBytes 2, bytesOf 8 n.seed].flatten := by
    have set : identityBytes s.ec.identity
        = [[1#8], numberBytes 1 n.size, zeroBytes 2, bytesOf 8 n.seed].flatten := by
      rw [identity]
      simp [identityBytes]
    exact congrArg some set
  exact ⟨State.statusField_within law (a := 12) (b := 0) (j := 0)
    rfl piece rfl rfl rfl rfl rfl (by decide),
    State.statusField_within law (a := 12) (b := 1) (j := 1)
    (littleEndian_numberBytes 1 n.size) piece
      rfl rfl rfl rfl rfl (by decide),
    State.statusField_within law (a := 12) (b := 2) (j := 2) (littleEndian_zeroBytes 2) piece
      rfl rfl rfl rfl rfl (by decide),
    State.statusField_within law (a := 12) (b := 4) (j := 3)
    (littleEndian_bytesOf_eight n.seed) piece
      rfl rfl rfl rfl rfl (by decide)⟩

/-- The fields of the status block outside the identity and the poison entries. -/
theorem State.statusField_eight {s : State} (law : s.poisonLaw) {i off : Nat} {x : BitVec 64}
    (piece : s.statusPieces[i]? = some (bytesOf 8 x)) (before : (statusLengths.take i).sum = off)
    (size : statusLengths[i]? = some 8) : s.statusField off 8 = x.toNat :=
  State.statusField_of_piece law (littleEndian_bytesOf_eight x) piece before size

/-- Settles O35: the end of the write, then the layout piece by piece. -/
theorem statusWriteCompletionSetsItsCauses : Obligations.StatusWriteCompletionSetsItsCauses := by
  refine ⟨fun s tag a awaited kind => ?ends, fun s law => ?layout, rfl, rfl, rfl, rfl⟩
  case ends =>
    refine ⟨_, exec_statusWriteCompletion awaited kind, ?_, by simp [State.statusShown],
      State.sameTablePath.close (by simp [State.sameTablePath, State.statusShown]),
      State.endsAccess.close (State.endsAccess_of_eq (by simp [State.statusShown])),
      (State.addsOnly_of_endAccess_eq tag (by simp [State.statusShown])).close,
      State.sameWindow.close (by simp [State.sameWindow, State.statusShown]),
      fun addr owed known unheld => ?_, fun quiet => ?_⟩
    · apply EngineControl.ext <;> simp [State.statusShown_ec]
    · obtain ⟨status, issued⟩ := State.closeEvent_issues (u := s.statusShown tag false)
        owed known rfl
        unheld
      rw [status]
      exact ⟨rfl, rfl, rfl, issued⟩
    · rw [State.closeEvent_of_not_owed (u := s.statusShown tag false) quiet]
      rfl
  case layout =>
    intro num
    have small : s.bc.poison.length < 256 := lt_of_le_of_lt law (by decide)
    have engine : s.ec.engine.code < 256 := s.ec.engine.code_lt.trans (by decide)
    have refusal : s.ec.refusalCause.code < 256 := s.ec.refusalCause.code_lt.trans (by decide)
    have stall : littleEndian (numberBytes 1 (bit s.ec.stallHostFault + 2 * bit s.ec.stallBadBatch))
        = (if s.ec.stallHostFault then 1 else 0) + (if s.ec.stallBadBatch then 2 else 0) := by
      rw [← bit_add_two_mul_bit]
      refine littleEndian_numberBytes_of_lt ?_
      have := bit_lt s.ec.stallHostFault
      have := bit_lt s.ec.stallBadBatch
      omega
    have refused : littleEndian (numberBytes 1 (bit s.ec.refusedCommand.isSome))
        = if s.ec.refusedCommand = none then 0 else 1 := by
      cases s.ec.refusedCommand <;> rfl
    have single : ∀ b : Byte, littleEndian [b] = b.toNat := fun b => by simp
    have field : ∀ off n, num off n = s.statusField off n := fun _ _ => rfl
    clear_value num
    simp only [field]
    exact ⟨s.statusBlock_length law,
      State.statusField_of_piece law (i := 0) (littleEndian_numberBytes_of_lt engine) rfl rfl rfl,
      State.statusField_of_piece law (i := 1) stall rfl rfl rfl,
      State.statusField_of_piece law (i := 2) (littleEndian_numberBytes_of_lt refusal) rfl rfl rfl,
      State.statusField_of_piece law (i := 3) refused rfl rfl rfl,
      State.statusField_of_piece law (i := 4) (single _) rfl rfl rfl,
      State.statusField_of_piece law (i := 5) (single _) rfl rfl rfl,
      State.statusField_of_piece law (i := 6) (littleEndian_bit _) rfl rfl rfl,
      State.statusField_of_piece law (i := 7) (littleEndian_zeroBytes 1) rfl rfl rfl,
      State.statusField_of_piece law (i := 8) (littleEndian_numberBytes 4 _) rfl rfl rfl,
      fun none => State.statusField_of_piece law (i := 9)
        (by rw [none]; exact littleEndian_zeroBytes 12) rfl rfl rfl,
      fun n identity => State.statusField_identity law identity,
      State.statusField_eight law (i := 10) rfl rfl rfl, State.statusField_eight law (i := 11)
      rfl rfl rfl,
      State.statusField_eight law (i := 12) rfl rfl rfl, State.statusField_eight law (i := 13)
      rfl rfl rfl,
      State.statusField_eight law (i := 14) rfl rfl rfl, State.statusField_eight law (i := 15)
      rfl rfl rfl,
      State.statusField_eight law (i := 16) rfl rfl rfl, State.statusField_eight law (i := 17)
      rfl rfl rfl,
      State.statusField_eight law (i := 18) rfl rfl rfl, State.statusField_eight law (i := 19)
      rfl rfl rfl,
      State.statusField_eight law (i := 20) rfl rfl rfl,
      State.statusField_of_piece law (i := 21) (littleEndian_numberBytes_of_lt small) rfl rfl rfl,
      State.statusField_of_piece law (i := 22) (littleEndian_bit _) rfl rfl rfl,
      State.statusField_of_piece law (i := 23) (littleEndian_zeroBytes 6) rfl rfl rfl,
      fun i e entry => State.statusField_poison law entry,
      fun i h unused => State.statusField_unused law h unused,
      State.statusField_of_piece law (i := 25) (littleEndian_zeroBytes 8) rfl rfl rfl⟩

end Sys2Proof.Machine
end


section
/-! The arbiter's effects on the banks (R114, R126), and the refresh work that takes the port (R122,
R129, R132). -/

namespace Sys2Proof.Machine

/-! ## Banks that close, open and refresh (R114) -/

/-- A bank that begins to close (R114, R126). -/
def Bank.close (x : Bank) (wait : Timer) : Bank :=
  { x with state := .closing, closeWait := wait, idleClose := .stopped }

theorem State.bank_closeBank (s : State) (b c : BankId) : (s.closeBank b).bank c =
    if c = b then (s.bank b).close (s.timer MemoryProfile.closeWait) else s.bank c :=
  s.bank_setBank b c _

theorem Bank.rowOpen_iff (x : Bank) : x.rowOpen.isSome = true ↔ ∃ r, x.state = .opened r := by
  cases h : x.state <;> simp [Bank.rowOpen, h]

theorem Bank.rowOpen_eq_some_iff (x : Bank) (r : Nat) : x.rowOpen = some r ↔ x.state =
    .opened r := by
  cases h : x.state <;> simp [Bank.rowOpen, h]

theorem Bank.rowOpen_eq_none_iff (x : Bank) : x.rowOpen = none ↔ ∀ r, x.state ≠ .opened r := by
  cases h : x.state <;> simp [Bank.rowOpen, h]

theorem Bank.isOpening_iff (x : Bank) : x.isOpening = true ↔ ∃ r, x.state = .opening r := by
  cases h : x.state <;> simp [Bank.isOpening, h]

/-- CLOSE may act on a bank that is OPEN with HOLD_MIN expired (R114, R117). -/
theorem State.canClose_iff (s : State) (b : BankId) : s.canClose b = true ↔
    (∃ r, (s.bank b).state = .opened r) ∧ (s.bank b).holdMin.isRunning = false := by
  rw [State.canClose, Bool.and_eq_true, Bank.rowOpen_iff, Bool.not_eq_true']

theorem State.canCloseAll_iff (s : State) : s.canCloseAll = true ↔
    (∃ (b : BankId) (r : Nat), (s.bank b).state = .opened r)
      ∧ ∀ b : BankId, (∀ r, (s.bank b).state ≠ .opening r)
        ∧ ((∃ r, (s.bank b).state = .opened r) → (s.bank b).holdMin.isRunning = false) := by
  have opening : ∀ b, (s.bank b).isOpening = false ↔ ∀ r, (s.bank b).state ≠ .opening r :=
      fun b => by
    rw [← Bool.not_eq_true, Bank.isOpening_iff, not_exists]
  simp only [State.canCloseAll, Bool.and_eq_true, List.any_eq_true, List.all_eq_true, mem_allBanks,
    true_and, true_imp_iff, Bank.rowOpen_iff, Bool.not_eq_true', opening, Bool.or_eq_true,
    Option.isNone_iff_eq_none, Bank.rowOpen_eq_none_iff, State.canClose_iff]
  refine and_congr_right fun _ => forall_congr' fun b => and_congr_right fun _ => ⟨?_, fun h => ?_⟩
  · rintro (closed | ⟨-, expired⟩) ⟨r, isOpen⟩
    exacts [absurd isOpen (closed r), expired]
  · by_cases isOpen : ∃ r, (s.bank b).state = .opened r
    exacts [.inr ⟨isOpen, h isOpen⟩, .inl (not_exists.mp isOpen)]

/-- OPEN may issue for a CLOSED bank, without refresh work and out of the drain (R129, R132). -/
theorem State.canOpen_iff (s : State) (b : BankId) : s.canOpen b = true ↔
    (s.bank b).state = .closed ∧ s.mc.committed = false ∧ s.mc.accepting = true := by
  simp [State.canOpen, and_assoc]

/-- CLOSE_ALL closes the banks that are OPEN, and no other (R114). -/
theorem State.bank_closeOpenBanks (s : State) (c : BankId) : s.closeOpenBanks.bank c =
    if (s.bank c).rowOpen.isSome then (s.bank c).close (s.timer MemoryProfile.closeWait)
    else s.bank c := by
  let step : State → BankId → State := fun t b => if (t.bank b).rowOpen.isSome then t.closeBank b
    else t
  have fold : ∀ (l : List BankId) (t : State), (l.foldl step t).bank c =
      if c ∈ l ∧ (t.bank c).rowOpen.isSome = true then
        (t.bank c).close (t.timer MemoryProfile.closeWait) else t.bank c := by
    intro l
    induction l with
    | nil => intro t; simp
    | cons b l ih =>
      intro t
      rw [List.foldl_cons, ih]
      by_cases isOpen : (t.bank b).rowOpen.isSome = true
      · have stepped : step t b = t.closeBank b := if_pos isOpen
        rw [stepped, State.bank_closeBank]
        by_cases here : c = b
        · subst here
          have shut : ∀ wait, ((t.bank c).close wait).rowOpen = none := fun _ => rfl
          simp [isOpen, shut]
        · simp [here, State.timer, State.closeBank, State.modifyBank, State.setBank]
      · have stepped : step t b = t := if_neg isOpen
        rw [stepped]
        by_cases here : c = b
        · subst here
          simp [isOpen]
        · simp [here]
  refine (fold allBanks s).trans ?_
  simp only [mem_allBanks, true_and]

/-- REFRESH puts every bank into REFRESHING (R114). -/
theorem State.bank_refreshBanks (s : State) (c : BankId) :
    s.refreshBanks.bank c = { s.bank c with state := .refreshing } := by
  have fold : ∀ (l : List BankId) (t : State),
      (l.foldl (fun t b => t.modifyBank b fun x => { x with state := .refreshing }) t).bank c =
        if c ∈ l then { t.bank c with state := .refreshing } else t.bank c := by
    intro l
    induction l with
    | nil => intro t; simp
    | cons b l ih =>
      intro t
      rw [List.foldl_cons, ih]
      by_cases here : c = b
      · subst here
        simp
      · simp [here, State.bank_modifyBank_of_ne t _ here]
  exact (fold allBanks s).trans (if_pos (mem_allBanks c))

theorem State.bank_openBank (s : State) (b c : BankId) (row : Nat) : (s.openBank b row).bank c =
    if c = b then { s.bank b with
      state := .opening row, openWait := s.timer MemoryProfile.openWait
      holdMin := s.timer MemoryProfile.holdMin } else s.bank c :=
  s.bank_setBank b c _

/-- An idle bank's timer starts; nothing else of any bank changes (R126). -/
theorem State.bank_fallIdle (s : State) (b c : BankId) :
    ∃ idle, (s.fallIdle b).bank c = { s.bank c with idleClose := idle } := by
  unfold State.fallIdle
  split
  · split
    · by_cases here : c = b
      · subst here
        exact ⟨_, State.bank_modifyBank_self s c _⟩
      · exact ⟨_, State.bank_modifyBank_of_ne s _ here⟩
    · exact ⟨_, rfl⟩
  · exact ⟨_, rfl⟩

/-- The queue in which a column command has issued; the bank's machine stands still. -/
theorem State.bank_markIssued (s : State) (b c : BankId) (a : Access) : (s.markIssued b a).bank c =
    if c = b then { s.bank b with
      queue := issuedQueue a.age (if a.body.direction.isWrite then s.timer MemoryProfile.alertWait
        else .stopped) (s.bank b).queue } else s.bank c := by
  refine Eq.trans ?_ (s.bank_setBank b c _)
  unfold State.markIssued
  split <;> rfl

/-! ## No bank opens during refresh work or the drain (R129, R132) -/

/-- From `s` to `t` no bank begins to open. -/
def State.opensNone (s t : State) : Prop :=
  ∀ (b : BankId) (r : Nat), (t.bank b).state = .opening r → (s.bank b).state = .opening r

theorem State.opensNone_closeBank (s : State) (b : BankId) : s.opensNone (s.closeBank b) := by
  intro c r
  rw [State.bank_closeBank]
  split
  · simp [Bank.close]
  · exact id

theorem State.opensNone_fallIdle (s : State) (b : BankId) : s.opensNone (s.fallIdle b) := by
  intro c r
  obtain ⟨idle, bank⟩ := s.bank_fallIdle b c
  rw [bank]
  exact id

theorem State.opensNone_markIssued (s : State) (b : BankId) (a : Access) :
    s.opensNone (s.markIssued b a) := by
  intro c r
  rw [State.bank_markIssued]
  split
  case isTrue here => rw [here]; exact id
  case isFalse => exact id

theorem State.opensNone.trans {s t u : State} (h : s.opensNone t) (h' : t.opensNone u) :
    s.opensNone u :=
  fun b r e => h b r (h' b r e)

theorem State.opensNone_of_banks {s t : State} (h : t.mc.banks = s.mc.banks) : s.opensNone t :=
  fun b r e => by rwa [State.bank_of_banks h] at e

@[simp] theorem State.bank_drive (s : State) (c : DeviceCommand) (b : BankId) :
    (s.drive c).bank b = s.bank b := rfl

theorem State.issueChoice_closeAll (s : State) :
    s.issueChoice .closeAll = s.closeOpenBanks.drive .closeAll := rfl

theorem State.issueChoice_refresh (s : State) :
    s.issueChoice .refresh = s.refreshBanks.drive .refresh := rfl

/-- Only OPEN makes a bank begin to open. -/
theorem State.opensNone_issueChoice {s : State} {c : Choice} (other : ∀ b r, c ≠ .openRow b r) :
    s.opensNone (s.issueChoice c) := by
  cases c with
  | closeAll =>
    intro c r opening
    rw [State.issueChoice_closeAll, State.bank_drive, State.bank_closeOpenBanks] at opening
    split at opening
    · simp [Bank.close] at opening
    · exact opening
  | refresh =>
    intro c r opening
    rw [State.issueChoice_refresh, State.bank_drive, State.bank_refreshBanks] at opening
    cases opening
  | column b age =>
    unfold State.issueChoice
    dsimp only
    split
    case h_1 a _ =>
      have issued : s.opensNone (((s.markIssued b a).startGaps (groupOf b)
          a.body.direction.isWrite).drive (columnCommand b a (s.closingForm b a))) :=
        (State.opensNone_markIssued s b a).trans (State.opensNone_of_banks rfl)
      unfold State.issueColumn
      dsimp only
      split
      · exact issued.trans (State.opensNone_closeBank _ b)
      · exact issued.trans (State.opensNone_fallIdle _ b)
    case h_2 => exact fun _ _ => id
  | close b => exact s.opensNone_closeBank b
  | openRow b r => exact absurd rfl (other b r)

/-- With refresh committed, or in the drain, OPEN is not chosen. -/
theorem State.choose_ne_openRow {s : State} (shut : s.mc.committed = true ∨ s.mc.accepting = false)
    (b : BankId) (r : Nat) : s.choose ≠ some (.openRow b r) := by
  have closed : ∀ c, s.canOpen c = false := fun c => by
    rw [← Bool.not_eq_true, State.canOpen_iff]
    rintro ⟨-, committed, accepting⟩
    rcases shut with h | h
    · rw [h] at committed; cases committed
    · rw [h] at accepting; cases accepting
  intro chosen
  simp only [State.choose, Option.or_eq_some_iff] at chosen
  obtain one | ⟨-, two | ⟨-, three | ⟨-, four | ⟨-, five | ⟨-, six⟩⟩⟩⟩⟩ := chosen
  · simp only [State.classOne] at one
    split at one
    · cases one
    · split at one <;> cases one
  · obtain ⟨c, n, two⟩ := oldestOf_eq_some two
    obtain ⟨a, -, two⟩ := List.exists_of_findSome?_eq_some two
    split at two
    · simp only [Option.map_eq_some_iff, Prod.mk.injEq] at two
      obtain ⟨d, next, -, rfl⟩ := two
      simp only [State.nextCommand, closed c, Bool.false_eq_true, if_false] at next
      repeat' split at next
      all_goals simp at next
    · cases two
  · obtain ⟨c, n, three⟩ := oldestOf_eq_some three
    simp [State.classThreeAt] at three
  · obtain ⟨c, n, four⟩ := oldestOf_eq_some four
    simp only [State.classFourAt] at four
    repeat' split at four
    all_goals simp at four
  · obtain ⟨c, n, five⟩ := oldestOf_eq_some five
    simp only [State.classFiveAt, closed c, Bool.false_eq_true, if_false] at five
    repeat' split at five
    all_goals simp at five
  · simp [State.classSix] at six

theorem State.onlyController_arbitrate (s : State) : s.onlyController s.arbitrate :=
  s.arbitrate_frame

theorem State.arbitrate_of_choose {s : State} {c : Choice} (h : s.choose = some c) :
    s.arbitrate = s.issueChoice c := by
  simp [State.arbitrate, h]

/-- The state with a refresh committed (class 7). -/
def State.commit (s : State) : State :=
  { s with mc := { s.mc with committed := true } }

theorem State.bank_commit (s : State) (b : BankId) : s.commit.bank b = s.bank b :=
  rfl

theorem State.arbitrate_of_none {s : State} (none : s.choose = none) : s.arbitrate =
    if s.mayCommit then (s.commit.choose.map s.commit.issueChoice).getD s.commit else s := by
  simp only [State.arbitrate, none]
  rfl

/-- With refresh committed, or in the drain, no bank begins to open. -/
theorem State.opensNone_arbitrate {s : State}
    (shut : s.mc.committed = true ∨ s.mc.accepting = false) : s.opensNone s.arbitrate := by
  cases chosen : s.choose with
  | some c =>
    rw [State.arbitrate_of_choose chosen]
    exact State.opensNone_issueChoice fun b r e =>
      State.choose_ne_openRow shut b r (chosen.trans (congrArg some e))
  | none =>
    rw [State.arbitrate_of_none chosen]
    have other : ∀ b r, s.commit.choose ≠ some (.openRow b r) :=
      State.choose_ne_openRow (.inl (by rfl))
    have same : s.opensNone s.commit := fun b r h => by rwa [State.bank_commit] at h
    generalize s.commit = u at other same
    split
    · cases afterwards : u.choose with
      | none => exact same
      | some c =>
        exact same.trans (State.opensNone_issueChoice fun b r e =>
          other b r (afterwards.trans (congrArg some e)))
    · exact fun _ _ => id

/-- Settles O45: what the arbiter may not choose, and what class 1 gives. -/
theorem committedRefreshTakesThePort : Obligations.CommittedRefreshTakesThePort := by
  intro s shut
  refine ⟨⟨s.arbitrate, rfl, s.onlyController_arbitrate, State.opensNone_arbitrate shut⟩,
    fun committed closed => ?refresh, fun isOpen ready => ?closeAll⟩
  case refresh =>
    have noClose : s.canCloseAll = false := by
      rw [← Bool.not_eq_true, State.canCloseAll_iff]
      rintro ⟨⟨b, r, isOpen⟩, -⟩
      rw [closed b] at isOpen
      cases isOpen
    have allClosed : (allBanks.all fun b => (s.bank b).state == .closed) = true := by
      simp [List.all_eq_true, closed]
    have chosen : s.choose = some .refresh := by
      simp [State.choose, State.classOne, noClose, committed, allClosed]
    refine ⟨s.arbitrate, rfl, s.onlyController_arbitrate, ?_⟩
    rw [State.arbitrate_of_choose chosen, State.issueChoice_refresh]
    exact ⟨rfl, rfl, fun b => by rw [State.bank_drive, State.bank_refreshBanks]⟩
  case closeAll =>
    have close : s.canCloseAll = true := s.canCloseAll_iff.mpr
      ⟨isOpen, fun b => ⟨fun r => (ready b r).1, fun ⟨r, isOpen⟩ => (ready b r).2 isOpen⟩⟩
    have chosen : s.choose = some .closeAll := by
      have work : (s.mc.committed || !s.mc.accepting) = true := by
        rcases shut with h | h <;> simp [h]
      simp [State.choose, State.classOne, close, work]
    refine ⟨s.arbitrate, rfl, s.onlyController_arbitrate, ?_⟩
    rw [State.arbitrate_of_choose chosen, State.issueChoice_closeAll]
    refine ⟨rfl, fun b => ?_⟩
    rw [State.bank_drive, State.bank_closeOpenBanks]
    constructor
    · intro r isOpen
      rw [if_pos ((Bank.rowOpen_iff _).mpr ⟨r, isOpen⟩)]
      rfl
    · intro notOpen
      rw [if_neg]
      rw [Bank.rowOpen_iff]
      exact not_exists.mpr notOpen

end Sys2Proof.Machine
end


section
/-! What the arbiter chooses and how a column command issues (R114, R118, R121 to R126, R129, R134).
-/

namespace Sys2Proof.Machine

/-! ## The oldest candidate (R122) -/

theorem older_eq_none_iff (x y : Option (Nat × Choice)) :
    older x y = none ↔ x = none ∧ y = none := by
  cases x with
  | none => simp [older]
  | some p =>
    cases y with
    | none => simp [older]
    | some q =>
      simp only [older]
      split <;> simp

/-- The older of two candidates is one of them, and not younger than either. -/
theorem older_eq_some {x y : Option (Nat × Choice)} {p : Nat × Choice} (h : older x y = some p) :
    (x = some p ∨ y = some p) ∧ ∀ q, x = some q ∨ y = some q → p.1 ≤ q.1 := by
  cases x with
  | none => cases y <;> simp_all [older]
  | some p' =>
    cases y with
    | none => simp_all [older]
    | some q' =>
      simp only [older] at h
      split at h <;> cases h
      · exact ⟨.inr rfl, by rintro q (⟨⟨⟩⟩ | ⟨⟨⟩⟩) <;> omega⟩
      · exact ⟨.inl rfl, by rintro q (⟨⟨⟩⟩ | ⟨⟨⟩⟩) <;> omega⟩

theorem foldl_older_eq_none_iff (l : List (Option (Nat × Choice))) (x : Option (Nat × Choice)) :
    l.foldl older x = none ↔ x = none ∧ ∀ y ∈ l, y = none := by
  induction l generalizing x with
  | nil => simp
  | cons y l ih => simp [ih, older_eq_none_iff, and_assoc]

theorem foldl_older_eq_some {l : List (Option (Nat × Choice))} {x : Option (Nat × Choice)}
    {p : Nat × Choice} (h : l.foldl older x = some p) :
    (x = some p ∨ some p ∈ l) ∧ ∀ q, x = some q ∨ some q ∈ l → p.1 ≤ q.1 := by
  induction l generalizing x with
  | nil =>
    obtain rfl : x = some p := h
    exact ⟨.inl rfl, by rintro q (⟨⟨⟩⟩ | ⟨⟨⟩⟩); exact le_rfl⟩
  | cons y l ih =>
    obtain ⟨source, least⟩ := ih h
    constructor
    · obtain first | later := source
      · exact (older_eq_some first).1.imp id fun e => by simp [e]
      · exact .inr (.tail _ later)
    · intro q candidate
      by_cases later : some q ∈ l
      · exact least q (.inr later)
      · have first : x = some q ∨ y = some q := by simpa [later, eq_comm] using candidate
        cases o : older x y with
        | none =>
          obtain ⟨rfl, rfl⟩ := (older_eq_none_iff x y).mp o
          simp at first
        | some r => exact (least r (.inl o)).trans ((older_eq_some o).2 q first)

/-- The choice among the banks is the candidate of the oldest access (R122). -/
theorem oldestOf_least {f : BankId → Option (Nat × Choice)} {c : Choice} (h : oldestOf f = some c) :
    ∃ b age, f b = some (age, c) ∧ ∀ b' age' c', f b' = some (age', c') → age ≤ age' := by
  obtain ⟨⟨age, c⟩, fold, rfl⟩ := Option.map_eq_some_iff.mp h
  obtain ⟨source, least⟩ := foldl_older_eq_some fold
  obtain ⟨b, -, found⟩ := List.mem_map.mp (source.resolve_left (by simp))
  exact ⟨b, age, found, fun b' age' c' h =>
    least (age', c') (.inr (List.mem_map.mpr ⟨b', mem_allBanks b', h⟩))⟩

theorem oldestOf_eq_none_iff (f : BankId → Option (Nat × Choice)) :
    oldestOf f = none ↔ ∀ b, f b = none := by
  simp [oldestOf, foldl_older_eq_none_iff, mem_allBanks]

/-! ## Gates (R114, R117, R118, R123, R125) -/

theorem mem_takeWhile_iff {α : Type} (p : α → Bool) (l : List α) (x : α) : x ∈ l.takeWhile p ↔
    ∃ pre mid, l = pre ++ x :: mid ∧ (∀ y ∈ pre, p y = true) ∧ p x = true := by
  constructor
  · intro h
    obtain ⟨pre, mid, split⟩ := List.append_of_mem h
    have all : ∀ y ∈ pre ++ x :: mid, p y = true := fun y mem => by
      rw [← split] at mem
      exact List.mem_takeWhile_imp mem
    refine ⟨pre, mid ++ l.dropWhile p, ?_, fun y mem => all y (by simp [mem]), all x (by simp)⟩
    rw [← List.cons_append, ← List.append_assoc, ← split, List.takeWhile_append_dropWhile]
  · rintro ⟨pre, mid, rfl, before, here⟩
    rw [List.takeWhile_append_of_pos before, List.takeWhile_cons_of_pos here]
    simp

theorem State.barred_eq_false_iff (s : State) (b : BankId) (a : Access) : s.barred b a = false ↔
    ∀ pre x mid, (s.bank b).queue = pre ++ x :: mid → (∀ y ∈ pre, y.age ≠ a.age) →
      x.age ≠ a.age → x.issued = false → x.overtaken ≠ 8 := by
  simp only [State.barred, List.any_eq_false, mem_takeWhile_iff, Config.overtakenLimit, bne_iff_ne,
    Bool.and_eq_true, Bool.not_eq_true', beq_iff_eq, not_and]
  exact ⟨fun h pre x mid queue before here => h x ⟨pre, mid, queue, before, here⟩,
    fun h x ⟨pre, mid, queue, before, here⟩ => h pre x mid queue before here⟩

theorem State.canColumn_iff (s : State) (b : BankId) (a : Access) : s.canColumn b a = true ↔
    (s.bank b).state = .opened a.body.place.row
      ∧ s.mc.near[groupOf b].isRunning = false ∧ s.mc.far[groupOf b].isRunning = false
      ∧ (a.body.direction = .read → s.mc.turnGap.isRunning = false)
      ∧ (∀ pre x mid, (s.bank b).queue = pre ++ x :: mid → (∀ y ∈ pre, y.age ≠ a.age) →
          x.age ≠ a.age → x.issued = false → x.overtaken ≠ 8)
      ∧ (s.closingForm b a = true → (s.bank b).holdMin.isRunning = false) := by
  have turn : (a.body.direction.isWrite || !s.mc.turnGap.isRunning) = true ↔
      (a.body.direction = .read → s.mc.turnGap.isRunning = false) := by
    cases a.body.direction <;> simp [Direction.isWrite]
  have closing : (!s.closingForm b a || !(s.bank b).holdMin.isRunning) = true ↔
      (s.closingForm b a = true → (s.bank b).holdMin.isRunning = false) := by
    cases s.closingForm b a <;> simp
  rw [← State.barred_eq_false_iff, State.canColumn]
  simp only [Bool.and_eq_true, turn, closing, beq_iff_eq, Bank.rowOpen_eq_some_iff,
    Bool.not_eq_true', and_assoc]

theorem State.closingForm_iff (s : State) (b : BankId) (a : Access) : s.closingForm b a = true ↔
    s.mc.profile.map MemoryProfile.closePolicy = some .closeEarly
      ∧ ∀ x ∈ (s.bank b).queue.filter fun x => !x.issued, x.age ≠ a.age →
        x.body.place.row ≠ a.body.place.row := by
  simp only [State.closingForm, State.rowWanted, Bank.unissued, Bool.and_eq_true, beq_iff_eq,
    Bool.not_eq_true', List.any_eq_false, bne_iff_ne, not_and]

/-! ## What each class takes at a bank (R121, R122, R124) -/

theorem State.nextCommand_of_opened {s : State} {b : BankId} {r : Nat}
    (isOpen : (s.bank b).state = .opened r) (a : Access) : s.nextCommand b a =
      if r = a.body.place.row then
        if s.canColumn b a then some (.column b a.age) else none
      else if (s.bank b).holdMin.isRunning then none else some (.close b) := by
  have close : s.canClose b = !(s.bank b).holdMin.isRunning := by
    rw [State.canClose, (Bank.rowOpen_iff _).mpr ⟨r, isOpen⟩, Bool.true_and]
  simp only [State.nextCommand, isOpen, close]
  cases (s.bank b).holdMin.isRunning <;> rfl

theorem State.nextCommand_of_closed {s : State} {b : BankId} (closed : (s.bank b).state = .closed)
    (a : Access) : s.nextCommand b a =
      if s.mc.committed = false ∧ s.mc.accepting = true then
        some (.openRow b a.body.place.row) else none := by
  have gate : s.canOpen b = true ↔ s.mc.committed = false ∧ s.mc.accepting = true := by
    rw [State.canOpen_iff, and_iff_right closed]
  simp only [State.nextCommand, closed, gate]

theorem State.nextCommand_of_neither {s : State} {b : BankId}
    (notOpen : ∀ r, (s.bank b).state ≠ .opened r) (notClosed : (s.bank b).state ≠ .closed)
    (a : Access) : s.nextCommand b a = none := by
  unfold State.nextCommand
  split
  case h_1 r isOpen => exact absurd isOpen (notOpen r)
  case h_2 closed => exact absurd closed notClosed
  case h_3 => rfl

/-- Class 2 takes the first access overtaken 8 times whose next command has its gates open. -/
theorem State.classTwoAt_of_first {s : State} {b : BankId} {pre post : List Access} {a : Access}
    (queue : (s.bank b).unissued = pre ++ a :: post) (limit : a.overtaken = 8)
    (before : ∀ x ∈ pre, x.overtaken = 8 → s.nextCommand b x = none) {c : Choice}
    (next : s.nextCommand b a = some c) : s.classTwoAt b = some (a.age, c) := by
  have passed : pre.findSome? (fun x => if x.overtaken == Config.overtakenLimit then
      (s.nextCommand b x).map fun c => (x.age, c) else none) = none := by
    rw [List.findSome?_eq_none_iff]
    intro x mem
    split
    · rw [before x mem (beq_iff_eq.mp ‹_›), Option.map_none]
    · rfl
  have here : (a.overtaken == Config.overtakenLimit) = true := beq_iff_eq.mpr limit
  rw [State.classTwoAt, queue, List.findSome?_append, passed, List.findSome?_cons,
    if_pos here, next]
  rfl

theorem State.classTwoAt_eq_none {s : State} {b : BankId}
    (blocked : ∀ a ∈ (s.bank b).unissued, a.overtaken = 8 → s.nextCommand b a = none) :
    s.classTwoAt b = none := by
  rw [State.classTwoAt, List.findSome?_eq_none_iff]
  intro x mem
  split
  · rw [blocked x mem (beq_iff_eq.mp ‹_›), Option.map_none]
  · rfl

/-- Class 3 takes the first row hit whose gates are open. -/
theorem State.classThreeAt_of_first {s : State} {b : BankId} {pre post : List Access} {a : Access}
    (queue : (s.bank b).unissued = pre ++ a :: post) (gates : s.canColumn b a = true)
    (before : ∀ x ∈ pre, s.canColumn b x = false) :
    s.classThreeAt b = some (a.age, .column b a.age) := by
  have passed : pre.find? (fun x => s.canColumn b x) = none := by
    simpa [List.find?_eq_none] using before
  simp [State.classThreeAt, queue, List.find?_append, passed, gates]

theorem State.classThreeAt_eq_none {s : State} {b : BankId}
    (blocked : ∀ a ∈ (s.bank b).unissued, s.canColumn b a = false) : s.classThreeAt b = none := by
  simpa [State.classThreeAt] using blocked

/-- Class 4 closes a row that no UNISSUED access needs (R124). -/
theorem State.classFourAt_of_conflict {s : State} {b : BankId} {a : Access} {rest : List Access}
    {r : Nat} (queue : (s.bank b).unissued = a :: rest) (isOpen : (s.bank b).state = .opened r)
    (conflict : ∀ x ∈ (s.bank b).unissued, x.body.place.row ≠ r)
    (expired : (s.bank b).holdMin.isRunning = false) :
    s.classFourAt b = some (a.age, .close b) := by
  have row := (Bank.rowOpen_eq_some_iff _ _).mpr isOpen
  have close := (s.canClose_iff b).mpr ⟨⟨r, isOpen⟩, expired⟩
  have all : ((a :: rest).all fun c => c.body.place.row != r) = true := by
    simpa [queue] using conflict
  simp only [State.classFourAt, queue, row, close, all, Bool.and_self, if_true]

theorem State.classFourAt_eq_none {s : State} {b : BankId}
    (h : (∀ r, (s.bank b).state ≠ .opened r) ∨ (s.bank b).holdMin.isRunning = true
      ∨ (s.bank b).unissued = []
      ∨ ∃ r, (s.bank b).state = .opened r ∧ ∃ x ∈ (s.bank b).unissued, x.body.place.row = r) :
    s.classFourAt b = none := by
  unfold State.classFourAt
  split
  case h_1 a rest r queue row =>
    rw [if_neg]
    rw [Bool.and_eq_true, State.canClose_iff, List.all_eq_true]
    rintro ⟨⟨-, expired⟩, conflict⟩
    have isOpen := (Bank.rowOpen_eq_some_iff _ _).mp row
    obtain closed | running | empty | ⟨r', isOpen', x, mem, wanted⟩ := h
    · exact closed r isOpen
    · rw [expired] at running
      cases running
    · rw [queue] at empty
      cases empty
    · rw [isOpen] at isOpen'
      cases isOpen'
      rw [queue] at mem
      exact absurd wanted (by simpa using conflict x mem)
  case h_2 => rfl

/-- Class 5 opens the row of the oldest UNISSUED access. -/
theorem State.classFiveAt_of_oldest {s : State} {b : BankId} {a : Access} {rest : List Access}
    (queue : (s.bank b).unissued = a :: rest) : s.classFiveAt b =
      if (s.bank b).state = .closed ∧ s.mc.committed = false ∧ s.mc.accepting = true then
        some (a.age, .openRow b a.body.place.row) else none := by
  simp only [State.classFiveAt, queue, State.canOpen_iff]

theorem State.classFiveAt_of_empty {s : State} {b : BankId} (empty : (s.bank b).unissued = []) :
    s.classFiveAt b = none := by
  simp only [State.classFiveAt, empty]

/-- Out of refresh work and the drain, class 1 gives nothing. -/
theorem State.choose_of_free {s : State} (committed : s.mc.committed = false)
    (accepting : s.mc.accepting = true) : s.choose =
      (oldestOf s.classTwoAt).or ((oldestOf s.classThreeAt).or
        ((oldestOf s.classFourAt).or ((oldestOf s.classFiveAt).or
          ((s.mc.idleCandidates.find? s.canClose).map .close)))) := by
  have one : s.classOne = none := by simp [State.classOne, committed, accepting]
  rw [State.choose, one, Option.none_or, State.classSix]

/-! ## A column command issues (R114, R118, R123, R125) -/

/-- The queue in which the access of this age issues, read at its place. -/
theorem issuedQueue_append {age : Nat} {alert : Timer} {pre post : List Access} {a : Access}
    (before : ∀ c ∈ pre, c.age ≠ age) (here : a.age = age) :
    issuedQueue age alert (pre ++ a :: post) =
      pre.map (fun c => if c.issued then c else { c with overtaken := c.overtaken + 1 })
        ++ { a with issued := true, alert := alert } :: post := by
  induction pre with
  | nil => simp [issuedQueue, here]
  | cons c pre ih =>
    rw [List.cons_append, issuedQueue, if_neg (before c (.head _)),
      ih fun d mem => before d (.tail _ mem)]
    rfl

theorem State.queued_of_append {s : State} {b : BankId} {age : Nat} {pre post : List Access}
    {a : Access} (queue : (s.bank b).queue = pre ++ a :: post) (before : ∀ c ∈ pre, c.age ≠ age)
    (here : a.age = age) : s.queued b age = some a := by
  have passed : pre.find? (fun c => c.age == age) = none := by
    simpa [List.find?_eq_none] using before
  simp [State.queued, queue, List.find?_append, passed, here]

theorem otherGroup_ne (g : GroupId) : otherGroup g ≠ g := by
  revert g
  decide

theorem timers_set (v : Vector Timer 2) (g h : GroupId) (x : Timer) :
    (v.set g x)[h] = if h = g then x else v[h] := by
  simp [Vector.getElem_set, Fin.ext_iff, eq_comm]

/-- The state with the column command of an access on the port, before its bank closes or falls
idle. -/
def State.columnDriven (s : State) (b : BankId) (a : Access) : State :=
  ((s.markIssued b a).startGaps (groupOf b) a.body.direction.isWrite).drive
    (columnCommand b a (s.closingForm b a))

theorem State.issueColumn_eq (s : State) (b : BankId) (a : Access) : s.issueColumn b a =
    if s.closingForm b a then (s.columnDriven b a).closeBank b
    else (s.columnDriven b a).fallIdle b := rfl

theorem State.columnDriven_mc (s : State) (b : BankId) (a : Access) :
    (s.columnDriven b a).mc = { s.mc with
      banks := (s.columnDriven b a).mc.banks
      port := some (columnCommand b a (s.closingForm b a))
      near := s.mc.near.set (groupOf b) (s.timer MemoryProfile.gapNear)
      far := s.mc.far.set (otherGroup (groupOf b)) (s.timer MemoryProfile.gapFar)
      turnGap := if a.body.direction.isWrite then s.timer MemoryProfile.turnGap
        else s.mc.turnGap
      reads := s.mc.reads ++ if a.body.direction.isWrite then [] else [.access b a.age] } := by
  unfold State.columnDriven State.markIssued
  split
  case isTrue write =>
    simp [State.drive, State.startGaps, State.modifyBank, State.setBank, State.timer, write]
  case isFalse read =>
    simp [State.drive, State.startGaps, State.modifyBank, State.setBank, State.timer, read]

theorem State.bank_columnDriven (s : State) (b c : BankId) (a : Access) :
    (s.columnDriven b a).bank c = (s.markIssued b a).bank c := rfl

theorem State.fallIdle_mc (s : State) (b : BankId) :
    (s.fallIdle b).mc = { s.mc with banks := (s.fallIdle b).mc.banks } := by
  unfold State.fallIdle
  split
  · split <;> rfl
  · rfl

/-- After its column command the bank begins to close in the closing form, and only its idle timer
changes otherwise (R125, R126). -/
theorem State.issueColumn_bank (s : State) (b : BankId) (a : Access) :
    ((s.issueColumn b a).bank b).queue = ((s.markIssued b a).bank b).queue
      ∧ ((s.issueColumn b a).bank b).state =
        (if s.closingForm b a then .closing else (s.bank b).state)
      ∧ s.onlyBank (s.issueColumn b a) b := by
  have marked : ((s.markIssued b a).bank b).state = (s.bank b).state := by
    rw [State.bank_markIssued, if_pos rfl]
  have others : ∀ c, c ≠ b → (s.columnDriven b a).bank c = s.bank c := fun c other => by
    rw [State.bank_columnDriven, State.bank_markIssued, if_neg other]
  rw [State.issueColumn_eq]
  split
  · refine ⟨?_, ?_, fun c other => ?_⟩
    · rw [State.bank_closeBank, if_pos rfl, State.bank_columnDriven]
      rfl
    · rw [State.bank_closeBank, if_pos rfl]
      rfl
    · rw [State.bank_closeBank, if_neg other, others c other]
  · refine ⟨State.queue_fallIdle _ b b, ?_, fun c other => ?_⟩
    · obtain ⟨idle, bank⟩ := (s.columnDriven b a).bank_fallIdle b b
      rw [bank, State.bank_columnDriven]
      exact marked
    · rw [← others c other]
      unfold State.fallIdle
      split
      · split
        · exact State.bank_modifyBank_of_ne _ _ other
        · rfl
      · rfl

theorem State.issueColumn_mc (s : State) (b : BankId) (a : Access) :
    ∃ candidates, (s.issueColumn b a).mc = { (s.columnDriven b a).mc with
      banks := (s.issueColumn b a).mc.banks, idleCandidates := candidates } := by
  rw [State.issueColumn_eq]
  split
  · exact ⟨_, rfl⟩
  · exact ⟨_, (State.fallIdle_mc _ b).trans rfl⟩

theorem State.arbitrate_of_column {s : State} {b : BankId} {age : Nat} {pre post : List Access}
    {a : Access} (chosen : s.choose = some (.column b age))
    (queue : (s.bank b).queue = pre ++ a :: post) (here : a.age = age)
    (before : ∀ c ∈ pre, c.age ≠ age) : s.arbitrate = s.issueColumn b a := by
  rw [State.arbitrate_of_choose chosen]
  simp only [State.issueChoice, State.queued_of_append queue before here]

/-! ## A refresh is committed (R122) -/

theorem State.mayCommit_iff (s : State) : s.mayCommit = true ↔
    1 ≤ s.mc.owed ∧ s.mc.committed = false
      ∧ ∀ b : BankId, ∀ a ∈ (s.bank b).queue, a.issued = true := by
  simp [State.mayCommit, Bank.unissued, mem_allBanks, and_assoc, List.filter_eq_nil_iff]

@[simp] theorem State.closeOpenBanks_mc_committed (s : State) :
    s.closeOpenBanks.mc.committed = s.mc.committed := by
  unfold State.closeOpenBanks
  generalize allBanks = l
  induction l generalizing s with
  | nil => rfl
  | cons b l ih =>
    rw [List.foldl_cons, ih]
    split <;> rfl

@[simp] theorem State.refreshBanks_mc_committed (s : State) :
    s.refreshBanks.mc.committed = s.mc.committed := by
  have fold : ∀ (l : List BankId) (t : State), (l.foldl (fun t b => t.modifyBank b fun x =>
      { x with state := .refreshing }) t).mc.committed = t.mc.committed := by
    intro l
    induction l with
    | nil => exact fun t => rfl
    | cons b l ih =>
      intro t
      rw [List.foldl_cons, ih]
      rfl
  simp only [State.refreshBanks, fold]

/-- No choice lifts a commitment. -/
theorem State.committed_issueChoice {s : State} (c : Choice) (h : s.mc.committed = true) :
    (s.issueChoice c).mc.committed = true := by
  rw [← h]
  cases c with
  | closeAll => rw [State.issueChoice_closeAll, State.drive_mc_committed,
      State.closeOpenBanks_mc_committed]
  | refresh => rw [State.issueChoice_refresh, State.drive_mc_committed,
      State.refreshBanks_mc_committed]
  | close b => rfl
  | openRow b r => rfl
  | column b age =>
    unfold State.issueChoice
    dsimp only
    split
    · obtain ⟨candidates, mc⟩ := s.issueColumn_mc b ‹Access›
      rw [mc, s.columnDriven_mc]
    · rfl

/-- Where no class gives a command, a refresh owed and not committed is committed once no access is
UNISSUED. -/
theorem State.committed_arbitrate {s : State} (stuck : s.choose = none) (may : s.mayCommit = true) :
    s.arbitrate.mc.committed = true := by
  rw [State.arbitrate_of_none stuck, if_pos may]
  have committed : s.commit.mc.committed = true := rfl
  generalize s.commit = u at committed
  cases u.choose with
  | none => exact committed
  | some c => exact State.committed_issueChoice c committed

theorem Image.sealed_eq (im : Image) :
    let slot := fun k : Fin 5 => bytesOf 16 im.slots[k].key ++ bytesOf 8 im.slots[k].value
    let covered := [im.occupancy, im.spill] ++ bytesOf 2 im.reserved
      ++ slot 0 ++ slot 1 ++ slot 2 ++ slot 3 ++ slot 4
    im.sealed = { im with check :=
      ~~~(crcBits 0xFFFFFFFF (covered.flatMap fun x => (List.range 8).map x.getLsbD)) } := by
  have covers : im.coveredBytes = [im.occupancy, im.spill] ++ bytesOf 2 im.reserved
      ++ im.slots[0].bytes ++ im.slots[1].bytes ++ im.slots[2].bytes ++ im.slots[3].bytes
      ++ im.slots[4].bytes := by
    simp only [Image.coveredBytes, Image.slotBytes, List.append_assoc]
  rw [Image.sealed, Image.checkWord, covers]
  rfl

theorem Image.valid_iff (im : Image) : im.valid = true ↔ im.check = im.sealed.check :=
  beq_iff_eq

theorem crcBits_cons (reg : BitVec 32) (b : Bool) (bs : List Bool) : crcBits reg (b :: bs) =
    crcBits (if reg.getLsbD 0 = b then reg >>> 1 else reg >>> 1 ^^^ 0x82F63B78) bs := by
  by_cases same : reg.getLsbD 0 = b
  · rw [crcBits, if_neg (by simpa using same), if_pos same]
  · rw [crcBits, if_pos (by simpa using same), if_neg same]
    rfl

/-- Settles O46: the choice of the arbiter, the gates and the effects of its commands, and the check
word a write carries. -/
theorem columnCommandOvertakesOlderAccesses : Obligations.ColumnCommandOvertakesOlderAccesses := by
  refine ⟨fun s b age pre post a chosen queue here before => ?column,
    fun s b r chosen => ?openRow, fun s b chosen => ?close, fun s stuck => ⟨fun idle => ?idle,
      fun owed free issued => ?commit⟩,
    fun s committed accepting => State.choose_of_free committed accepting,
    fun f => ⟨fun c => oldestOf_least, oldestOf_eq_none_iff f⟩,
    fun s b => ⟨fun pre a post queue => ⟨fun limit before c => State.classTwoAt_of_first queue limit
        before, State.classThreeAt_of_first queue⟩, State.classTwoAt_eq_none,
      State.classThreeAt_eq_none, fun a rest r => State.classFourAt_of_conflict,
      State.classFourAt_eq_none, fun a rest => State.classFiveAt_of_oldest,
      State.classFiveAt_of_empty⟩,
    fun s b a => ⟨fun r isOpen => State.nextCommand_of_opened isOpen a,
      fun closed => State.nextCommand_of_closed closed a,
      fun notOpen notClosed => State.nextCommand_of_neither notOpen notClosed a,
      s.canColumn_iff b a, s.canClose_iff b, s.closingForm_iff b a⟩,
    fun b a closing => rfl, fun im => ⟨im.sealed_eq, im.valid_iff⟩,
    fun reg b bs => ⟨rfl, crcBits_cons reg b bs⟩⟩
  case column =>
    subst here
    refine ⟨s.arbitrate, rfl, s.onlyController_arbitrate, ?_⟩
    rw [State.arbitrate_of_column chosen queue rfl before]
    obtain ⟨accesses, state, others⟩ := s.issueColumn_bank b a
    obtain ⟨candidates, mc⟩ := s.issueColumn_mc b a
    rw [s.columnDriven_mc] at mc
    have marked : ((s.markIssued b a).bank b).queue = _ := congrArg Bank.queue
      ((s.bank_markIssued b b a).trans (if_pos rfl))
    refine ⟨others, accesses.trans (marked.trans ?_), state, ?_⟩
    · rw [queue, issuedQueue_append before rfl]
      rfl
    · generalize s.issueColumn b a = t at mc
      have other := otherGroup_ne (groupOf b)
      rw [mc]
      refine ⟨rfl, ?_, ?_, ?_, ?_, rfl, rfl, rfl, rfl, rfl⟩
      · exact (timers_set _ _ _ _).trans (if_pos rfl)
      · exact (timers_set _ _ _ _).trans (if_neg other)
      · exact (timers_set _ _ _ _).trans (if_pos rfl)
      · exact (timers_set _ _ _ _).trans (if_neg other.symm)
  case openRow =>
    refine ⟨s.arbitrate, rfl, s.onlyController_arbitrate, ?_⟩
    rw [State.arbitrate_of_choose chosen]
    exact ⟨fun c other => (s.bank_openBank b c r).trans (if_neg other),
      (s.bank_openBank b b r).trans (if_pos rfl), rfl⟩
  case close =>
    refine ⟨s.arbitrate, rfl, s.onlyController_arbitrate, ?_⟩
    rw [State.arbitrate_of_choose chosen]
    exact ⟨fun c other => (s.bank_closeBank b c).trans (if_neg other),
      (s.bank_closeBank b b).trans (if_pos rfl), rfl⟩
  case idle =>
    have may : ¬ s.mayCommit = true := by
      rw [State.mayCommit_iff]
      rintro ⟨owed, free, issued⟩
      obtain none | committed | ⟨b, a, mem, waits⟩ := idle
      · omega
      · rw [free] at committed
        cases committed
      · rw [issued b a mem] at waits
        cases waits
    exact congrArg Host.Outcome.next ((State.arbitrate_of_none stuck).trans (if_neg may))
  case commit =>
    exact ⟨s.arbitrate, rfl, s.onlyController_arbitrate,
      State.committed_arbitrate stuck (s.mayCommit_iff.mpr ⟨owed, free, issued⟩)⟩

end Sys2Proof.Machine
end


section
/-! Steps on a line (R20, R47, R48, R65 to R67): the request at the head of an executing line's
queue. -/

namespace Sys2Proof.Machine

/-- From `s` to `u` the request of slot `k` takes context `c`, and line `w` of set `i` becomes `l`
and the most recent of its set (R47, R48). -/
structure State.StepsOn (s u : State) (i : SetId) (w : Way) (k : SlotId) (c : Context)
    (l : Line) : Prop where
  line : u.line i w = l
  onlyLine : s.onlyLine u i w
  order : (u.cacheSet i).order = (s.cacheSet i).order.filter (· != w) ++ [w]
  waiting : (u.cacheSet i).waiting = (s.cacheSet i).waiting
  slot : u.slot k = { s.slot k with context := some c }
  onlySlot : s.onlySlot u k
  hold : u.rt.hold = s.rt.hold
  policy : u.bc.policy = s.bc.policy
  poison : u.bc.poison = s.bc.poison
  mc : u.mc = s.mc
  ec : u.ec = s.ec
  bi : u.bi = s.bi
  cu : u.cu = s.cu
  tl : u.tl = s.tl
  pending : u.pending = s.pending

/-- The state in which a line has become the most recent, with the context of its step. -/
def State.steppedAt (s : State) (i : SetId) (w : Way) (k : SlotId) (c : Context) : State :=
  (s.modifySlot k fun x => { x with context := some c }).touch i w

theorem State.stepsOn_steppedAt (s : State) (i : SetId) (w : Way) (k : SlotId) (c : Context) :
    s.StepsOn (s.steppedAt i w k c) i w k c (s.line i w) where
  line := State.line_touch _ i i w w
  onlyLine j v _ := State.line_touch _ i j w v
  order := State.touch_order_self _ i w
  waiting := State.touch_waiting _ i i w
  slot := (State.slot_of_rt (State.touch_rt _ i w) k).trans (State.slot_modifySlot_self s k _)
  onlySlot j other :=
    (State.slot_of_rt (State.touch_rt _ i w) j).trans (State.slot_modifySlot_of_ne s _ other)
  hold := rfl
  policy := rfl
  poison := rfl
  mc := rfl
  ec := rfl
  bi := rfl
  cu := rfl
  tl := rfl
  pending := rfl

namespace State.StepsOn

variable {s u : State} {i : SetId} {w : Way} {k : SlotId} {c : Context} {l : Line}

theorem setLine (h : s.StepsOn u i w k c l) (l' : Line) :
    s.StepsOn (u.setLine i w l') i w k c l' where
  line := State.line_setLine_self u i w l'
  onlyLine := h.onlyLine.trans (State.onlyLine_setLine u i w l')
  order := (State.setLine_order u i i w l').trans h.order
  waiting := (State.setLine_waiting u i i w l').trans h.waiting
  slot := (State.slot_of_rt (State.setLine_rt u i w l') k).trans h.slot
  onlySlot := h.onlySlot.trans (State.onlySlot_of_rt (State.setLine_rt u i w l') k)
  hold := h.hold
  policy := h.policy
  poison := h.poison
  mc := h.mc
  ec := h.ec
  bi := h.bi
  cu := h.cu
  tl := h.tl
  pending := h.pending

theorem modifyLine (h : s.StepsOn u i w k c l) (f : Line → Line) :
    s.StepsOn (u.modifyLine i w f) i w k c (f l) := by
  rw [← h.line]
  exact h.setLine _

theorem throughTreatment_iff (h : s.StepsOn u i w k c l) {kind : Kind} (keyed : kind.keyed = true)
    (b : Bucket) : u.throughTreatment kind b = true ↔
      s.bc.policy = .through ∨ (s.bc.policy = .adaptive ∧ s.openRow b = true) := by
  have notRepair : kind ≠ .repair := by
    rintro rfl
    cases keyed
  rw [State.throughTreatment_iff, h.policy, State.openRow_of_mc h.mc, or_iff_right notRepair]

end State.StepsOn

/-- A keyed request needs the stored image (R59). -/
theorem Kind.replacesImage_of_keyed {kind : Kind} (keyed : kind.keyed = true) :
    kind.replacesImage = false := by
  cases kind <;> first | rfl | cases keyed

/-- The step of a request that needs the stored image (R20, R47). -/
theorem State.stepOn_ordinary {s : State} {k : SlotId} {c : Context}
    (context : (s.slot k).context = some c) (ordinary : c.request.kind.replacesImage = false)
    (i : SetId) (w : Way) : s.stepOn i w k =
      (s.steppedAt i w k (tableStep c (s.line i w).image).context).applyStep i w k c.request.kind
        (tableStep c (s.line i w).image) := by
  simp only [State.stepOn, context, ordinary, Bool.false_eq_true, if_false]
  rfl

theorem State.stepOn_keyed {s : State} {k : SlotId} {c : Context}
    (context : (s.slot k).context = some c) (keyed : c.request.kind.keyed = true) (i : SetId)
    (w : Way) : s.stepOn i w k =
      (s.steppedAt i w k (tableStep c (s.line i w).image).context).applyStep i w k c.request.kind
        (tableStep c (s.line i w).image) :=
  State.stepOn_ordinary context (Kind.replacesImage_of_keyed keyed) i w

/-- The request at the head of an executing line's queue leaves it after its step (R20, R55). -/
theorem State.executeHead_of {s u : State} {i : SetId} {w : Way} {k : SlotId} {rest : List SlotId}
    {tasks : List Task} (waiters : (s.line i w).waiters = k :: rest)
    (executes : (s.line i w).state.executes = true) (step : s.stepOn i w k = (u, tasks)) :
    s.executeHead i w = (u.modifyLine i w fun x => { x with waiters := rest },
      tasks ++ if rest = [] then [.retry i] else []) := by
  simp only [State.executeHead, waiters, executes, if_true, step, List.isEmpty_iff]

/-- The consequences of a step that ends its request, with no fence hold, no slot in WAITING_KEY and
an empty wait list. -/
theorem settle_finish {u : State} {i : SetId} {rest : List SlotId} {k : SlotId} {r : Result}
    (running : u.ec.engine = .running) (hold : u.rt.hold = none)
    (keys : ∀ j : SlotId, (u.slot j).state ≠ .waitingKey) (waiting : (u.cacheSet i).waiting = []) :
    settle (u, [.finish k r] ++ if rest = [] then [.retry i] else [])
      = some (u.answered k r).closeEvent := by
  have finished := State.finishRequest_alone running hold keys k r
  have unowned : (u.answered k r).checkOwner = (u.answered k r, []) :=
    State.checkOwner_of_none hold
  have unwaited : (u.answered k r).retrySet i = (u.answered k r, []) :=
    State.retrySet_of_empty waiting
  by_cases empty : rest = []
  · simp only [settle, cascadeBound_eq, empty, if_true, List.cons_append, List.nil_append,
      runTasks_cons, runTask, finished, unowned, unwaited, runTasks_nil]
    rfl
  · simp only [settle, cascadeBound_eq, empty, if_false, List.cons_append, List.nil_append,
      runTasks_cons, runTask, finished, unowned, runTasks_nil]
    rfl

/-- What the event of a step leaves whose request is answered at once: line `w` of set `i` is `l`,
the request of slot `k` reports `r` (R20, R88). -/
theorem State.StepsOn.answers {s u : State} {i : SetId} {w : Way} {k : SlotId} {c : Context}
    {l : Line} {r : Result} {rest : List SlotId} (h : s.StepsOn u i w k c l)
    (head : s.executeHead i w = (u, [.finish k r] ++ if rest = [] then [.retry i] else []))
    (running : s.ec.engine = .running) (hold : s.rt.hold = none)
    (waiting : (s.cacheSet i).waiting = [])
    (keys : ∀ j : SlotId, (s.slot j).state ≠ .waitingKey) :
    ∃ t, exec (.stepExecution i w) s = .next t ∧ t.line i w = l ∧ s.onlyLine t i w
      ∧ (t.cacheSet i).order = (s.cacheSet i).order.filter (· != w) ++ [w]
      ∧ (t.slot k).state = .reporting ∧ (t.slot k).result = some r ∧ s.onlySlot t k
      ∧ t.hasIssued (.resultWrite k) (recordAddr (s.slot k).batch (s.slot k).index + 40) 16
          (resultBytes r)
      ∧ t.cu = s.cu ∧ t.tl = s.tl ∧ t.mc = s.mc ∧ t.bc.poison = s.bc.poison
      ∧ t.ec.counters = s.ec.counters ∧ s.sameWindow t := by
  have keys' : ∀ j : SlotId, (u.slot j).state ≠ .waitingKey := fun j => by
    by_cases here : j = k
    · rw [here, h.slot]
      exact keys k
    · rw [h.onlySlot j here]
      exact keys j
  have settled := settle_finish (rest := rest) (r := r) (k := k) (by rw [h.ec, running])
    (h.hold.trans hold) keys' (h.waiting.trans waiting)
  have closedSlots : ∀ j, (u.answered k r).closeEvent.slot j = (u.answered k r).slot j :=
    fun j => State.slot_of_rt (State.closeEvent_rt _) j
  have closedLines : (u.answered k r).closeEvent.bc = u.bc := State.closeEvent_bc _
  have own : (u.answered k r).closeEvent.slot k = _ :=
    (closedSlots k).trans (State.slot_answered_self u k r)
  have issued := (u.hasIssued_answered k r).closeEvent
  rw [h.slot] at issued
  refine ⟨(u.answered k r).closeEvent, ?_, ?_, ?_, ?_, congrArg Slot.state own,
    congrArg Slot.result own, fun j other => ?_, issued, ?_, ?_, ?_, ?_, ?_, ?_⟩
  · change outcomeOf (settle (s.executeHead i w)) = _
    rw [head, settled]
    rfl
  · exact (State.line_of_bc (congrArg BucketCache.sets closedLines) i w).trans h.line
  · exact h.onlyLine.trans (State.onlyLine_of_sets (congrArg BucketCache.sets closedLines) i w)
  · rw [State.cacheSet_of_sets (congrArg BucketCache.sets closedLines), h.order]
  · rw [closedSlots, u.onlySlot_answered k r j other, h.onlySlot j other]
  · rw [State.closeEvent_cu]
    exact h.cu
  · rw [State.closeEvent_tl]
    exact h.tl
  · rw [State.closeEvent_mc]
    exact h.mc
  · rw [closedLines, h.poison]
  · rw [State.closeEvent_ec_counters]
    exact congrArg EngineControl.counters h.ec
  · have setupL := congrArg BusInterface.setupL h.bi
    have setupH := congrArg BusInterface.setupH h.bi
    exact State.sameWindow.close ⟨setupL, setupH, congrArg EngineControl.intMask h.ec, h.pending⟩

/-- Settles O47: the step neither modifies its line nor sends its request on. -/
theorem stepExecutionAnswersWithoutModifying :
    Obligations.StepExecutionAnswersWithoutModifying := by
  intro s i w k rest c r executes waiters context keyed ends unmodified running hold waiting keys
  have stepped := s.stepsOn_steppedAt i w k (tableStep c (s.line i w).image).context
  have step := State.stepOn_keyed context keyed i w
  generalize s.steppedAt i w k (tableStep c (s.line i w).image).context = u at stepped step
  have quiet : u.applyStep i w k c.request.kind (tableStep c (s.line i w).image)
      = (u, [.finish k r]) := by
    simp [State.applyStep, ends, unmodified]
  rw [quiet] at step
  exact (stepped.modifyLine fun x => { x with waiters := rest }).answers
    (State.executeHead_of waiters executes step) running hold waiting keys

/-! ## Modifying steps (R65 to R67) -/

/-- A line that took a modification by the back treatment (R67). -/
def Line.back (l : Line) (im : Image) : Line := { l with image := im, state := l.state.afterBack }

theorem State.applyStep_goOn {s : State} {i : SetId} {w : Way} {k : SlotId} {kind : Kind}
    {out : StepResult} (ends : out.ending = .goOn) : s.applyStep i w k kind out =
      (if out.modifying then s.modifyBack i w out.image else s, [.arrive k]) := by
  simp [State.applyStep, ends]

/-- The back column of R67 at a line that executes. -/
theorem LineState.afterBack_of_executes {x : LineState} (executes : x.executes = true) :
    x.afterBack = if x = .clean ∨ x = .dirty then .dirty else .rewrite := by
  cases x <;> first | rfl | cases executes

/-- The through treatment on a line with a write in flight waits for the next write (R67). -/
theorem State.modifyThrough_of_inFlight {s : State} {i : SetId} {w : Way} {l : Line}
    (line : s.line i w = l) (inFlight : l.state = .writing ∨ l.state = .rewrite) (k : SlotId)
    (im : Image) : s.modifyThrough i w k im =
      s.setLine i w { l with image := im, state := .rewrite, next := l.next ++ [k] } := by
  subst line
  rcases inFlight with h | h <;> simp only [State.modifyThrough, h] <;> rfl

/-- The consequences of a step whose request waits for a write, where the set's wait list is empty.
-/
theorem settle_retry {u : State} {i : SetId} {rest : List SlotId}
    (waiting : (u.cacheSet i).waiting = []) :
    settle (u, [] ++ if rest = [] then [.retry i] else []) = some u.closeEvent := by
  have unwaited : u.retrySet i = (u, []) := State.retrySet_of_empty waiting
  by_cases empty : rest = []
  · simp only [settle, cascadeBound_eq, empty, if_true, List.nil_append, runTasks_cons, runTask,
      unwaited, runTasks_nil]
    rfl
  · simp only [settle, cascadeBound_eq, empty, if_false, List.nil_append, runTasks_nil]
    rfl

/-- What the event of a step leaves whose request waits for a write: `v` is the state in which line
`w` of set `i` has become `l'` by the through treatment (R67). -/
theorem State.StepsOn.awaits {s u v : State} {i : SetId} {w : Way} {k : SlotId} {c : Context}
    {l l' : Line} {r : Result} {rest : List SlotId} {counters : Counters}
    (h : s.StepsOn u i w k c l) (bc : v.bc = (u.setLine i w l').bc)
    (ec : v.ec = { u.ec with counters := counters }) (rt : v.rt = u.rt) (bi : v.bi = u.bi)
    (cu : v.cu = u.cu) (tl : v.tl = u.tl) (pending : v.pending = u.pending)
    (head : s.executeHead i w = ((v.modifySlot k fun x =>
        { x with state := .awaitingWrite, result := some r }).modifyLine i w fun x =>
          { x with waiters := rest }, [] ++ if rest = [] then [.retry i] else []))
    (waiting : (s.cacheSet i).waiting = []) :
    ∃ t, exec (.stepExecution i w) s = .next t ∧ t.line i w = { l' with waiters := rest }
      ∧ s.onlyLine t i w ∧ (t.slot k).state = .awaitingWrite ∧ (t.slot k).result = some r
      ∧ s.onlySlot t k ∧ t.mc = v.mc ∧ t.cu = s.cu ∧ t.tl = s.tl ∧ t.ec.counters = counters
      ∧ s.sameWindow t := by
  have sets := congrArg BucketCache.sets bc
  have line : v.line i w = l' := (State.line_of_bc sets i w).trans
      (State.line_setLine_self u i w l')
  have others : s.onlyLine v i w := (h.onlyLine.trans (State.onlyLine_setLine u i w l')).trans
    (State.onlyLine_of_sets sets i w)
  have waiting' : (v.cacheSet i).waiting = [] := by
    rw [State.cacheSet_of_sets sets, State.setLine_waiting, h.waiting, waiting]
  have slot : v.slot k = { s.slot k with context := some c } := (State.slot_of_rt rt k).trans h.slot
  have slots : s.onlySlot v k := h.onlySlot.trans (State.onlySlot_of_rt rt k)
  generalize popped : (v.modifySlot k fun x =>
    { x with state := .awaitingWrite, result := some r }).modifyLine i w (fun x =>
      { x with waiters := rest }) = y at head
  have bc' : y.bc = (v.setLine i w { l' with waiters := rest }).bc := by
    rw [← popped, ← line]
    rfl
  have rt' : y.rt = (v.modifySlot k fun x =>
      { x with state := .awaitingWrite, result := some r }).rt := by
    rw [← popped]
    rfl
  obtain ⟨mc', cu', tl', ec', bi', pending'⟩ : y.mc = v.mc ∧ y.cu = v.cu ∧ y.tl = v.tl
      ∧ y.ec = v.ec ∧ y.bi = v.bi ∧ y.pending = v.pending := by
    rw [← popped]
    exact ⟨rfl, rfl, rfl, rfl, rfl, rfl⟩
  clear popped
  have sets' : y.closeEvent.bc.sets = (v.setLine i w { l' with waiters := rest }).bc.sets := by
    rw [State.closeEvent_bc, bc']
  have own : y.closeEvent.slot k = { s.slot k with
      context := some c, state := .awaitingWrite, result := some r } := by
    rw [State.slot_of_rt ((State.closeEvent_rt y).trans rt'), State.slot_modifySlot_self, slot]
  have settled : settle (y, [] ++ if rest = [] then [.retry i] else []) = some y.closeEvent :=
    settle_retry (by
      rw [State.cacheSet_of_sets (congrArg BucketCache.sets bc'), State.setLine_waiting, waiting'])
  refine ⟨y.closeEvent, ?_, (State.line_of_bc sets' i w).trans (State.line_setLine_self v i w _),
    (others.trans (State.onlyLine_setLine v i w _)).trans (State.onlyLine_of_sets sets' i w),
    congrArg Slot.state own, congrArg Slot.result own, fun j other => ?_, ?_, ?_, ?_, ?_,
    State.sameWindow.close ⟨?_, ?_, ?_, ?_⟩⟩
  · change outcomeOf (settle (s.executeHead i w)) = _
    rw [head, settled]
    rfl
  · rw [State.slot_of_rt ((State.closeEvent_rt y).trans rt'), State.slot_modifySlot_of_ne v _ other,
      slots j other]
  · rw [State.closeEvent_mc, mc']
  · rw [State.closeEvent_cu, cu', cu, h.cu]
  · rw [State.closeEvent_tl, tl', tl, h.tl]
  · rw [State.closeEvent_ec_counters, ec', ec]
  · rw [bi', bi, h.bi]
  · rw [bi', bi, h.bi]
  · rw [ec', ec, h.ec]
  · rw [pending', pending, h.pending]

/-- Settles O48: the back treatment, the through treatment on a line at rest and on one with a write
in flight, and a step that sends its request on. -/
theorem stepExecutionAppliesTheWritePolicy : Obligations.StepExecutionAppliesTheWritePolicy := by
  refine ⟨fun s i w k rest c r waiters context keyed unclaimed ends modifying running hold waiting
    keys => ⟨fun back executes => ?back, fun through resting => ?atRest,
      fun through inFlight => ?inFlight⟩,
    fun s i w k rest c executes waiters context keyed ends => ?goOn⟩
  all_goals
    have stepped := s.stepsOn_steppedAt i w k (tableStep c (s.line i w).image).context
    have step := State.stepOn_keyed context keyed i w
    generalize s.steppedAt i w k (tableStep c (s.line i w).image).context = u at stepped step
    have treatment := stepped.throughTreatment_iff keyed ((s.line i w).tag.getD 0)
    generalize tableStep c (s.line i w).image = out at *
  case back =>
    have notThrough : ¬u.throughTreatment c.request.kind ((u.line i w).tag.getD 0) = true := by
      rw [stepped.line, treatment]
      rcases back with h | ⟨h, closed⟩ <;> simp_all
    rw [State.applyStep_back ends modifying notThrough, stepped.line] at step
    obtain ⟨t, event, line, others, -, state, result, slots, -, cu, tl, mc, -, counters, window⟩ :=
      ((stepped.setLine ((s.line i w).back out.image)).modifyLine fun x =>
        { x with waiters := rest }).answers
        (State.executeHead_of waiters executes step) running hold waiting keys
    refine ⟨t, event, line.trans ?_, others, state, result, slots, mc, cu, tl, counters, window⟩
    rw [← LineState.afterBack_of_executes executes]
    rfl
  case atRest =>
    have executes : (s.line i w).state.executes = true := by rcases resting with h | h <;> rw [h]
        <;> rfl
    have writes := State.handsLine_modifyThrough (by rwa [stepped.line]) k out.image
    rw [State.applyStep_through ends modifying (by rwa [stepped.line, treatment])] at step
    rw [stepped.line] at writes
    obtain ⟨t, event, line, others, state, result, slots, mc, cu, tl, counters, window⟩ :=
      stepped.awaits writes.bc writes.ec writes.rt writes.bi writes.cu writes.tl writes.pending
        (State.executeHead_of waiters executes step) waiting
    refine ⟨t, event, line, others, state, result, slots, cu, tl, ?_, ?_, window⟩
    · rw [counters, stepped.ec]
      rfl
    · rcases State.handsOver_of_mc writes.handsOver mc with waits | ⟨a, mem, body, -⟩
      · exact .inr ⟨_, waits, rfl⟩
      · exact .inl ⟨_, a, mem, body⟩
  case inFlight =>
    have executes : (s.line i w).state.executes = true := by
      rcases inFlight with h | h <;> rw [h] <;> rfl
    rw [State.applyStep_through ends modifying (by rwa [stepped.line, treatment]),
      State.modifyThrough_of_inFlight stepped.line inFlight] at step
    obtain ⟨t, event, line, others, state, result, slots, mc, cu, tl, counters, window⟩ :=
      stepped.awaits rfl rfl rfl rfl rfl rfl rfl (State.executeHead_of waiters executes step)
      waiting
    exact ⟨t, event, line, others, state, result, slots, mc.trans stepped.mc, cu, tl,
      counters.trans (congrArg EngineControl.counters stepped.ec), window⟩
  case goOn =>
    rw [State.applyStep_goOn ends] at step
    have head := State.executeHead_of waiters executes step
    cases modifying : out.modifying with
    | false =>
      have pops := stepped.modifyLine fun x => { x with waiters := rest }
      rw [modifying] at head
      exact ⟨_, congrArg (fun p => outcomeOf (settle p)) head, pops.order, pops.onlyLine, pops.slot,
        pops.onlySlot, pops.mc, pops.ec, pops.bi, pops.cu, pops.tl, fun _ => pops.line,
        fun h => by cases h⟩
    | true =>
      have pops := (stepped.modifyLine fun l => l.back out.image).modifyLine fun x =>
        { x with waiters := rest }
      rw [modifying] at head
      refine ⟨_, congrArg (fun p => outcomeOf (settle p)) head, pops.order, pops.onlyLine,
        pops.slot,
        pops.onlySlot, pops.mc, pops.ec, pops.bi, pops.cu, pops.tl, fun h => (by cases h),
        fun _ => pops.line.trans ?_⟩
      rw [← LineState.afterBack_of_executes executes]
      rfl

end Sys2Proof.Machine
end


section
/-! Records that arrive, and consideration (R81 to R86, R91). -/

namespace Sys2Proof.Machine

/-! ## The end of a record read and of a buffer read -/

theorem exec_recordArrival {s : State} {tag : Nat} {a : BusAccess} {k : SlotId}
    (awaits : s.awaits tag a) (kind : a.kind = .recordRead k) (d : Block64) :
    exec (.recordArrival tag d) s = outcomeOf (settle ((s.endAccess tag).recordArrived k d)) := by
  change outcomeOf (settle (s.onEndTasks tag AccessKind.isRecordRead
    fun a t => t.recordEnds a.kind d)) = _
  rw [State.onEndTasks_of_awaits awaits (by rw [kind]; rfl), kind]
  rfl

theorem exec_loadCompletion {s : State} {tag : Nat} {a : BusAccess} {k : SlotId}
    (awaits : s.awaits tag a) (kind : a.kind = .bufferRead k) (d : Block128) :
    exec (.loadCompletion tag d) s = outcomeOf (settle ((s.endAccess tag).bufferLoaded k d)) := by
  change outcomeOf (settle (s.onEndTasks tag AccessKind.isBufferRead
    fun a t => t.loadEnds a.kind d)) = _
  rw [State.onEndTasks_of_awaits awaits (by rw [kind]; rfl), kind]
  rfl

theorem State.recordArrived_of_discarded {s : State} {k : SlotId} (h : (s.slot k).discarded = true)
    (d : Block64) : s.recordArrived k d = ((s.freeSlot k).settleStop, []) :=
  if_pos h

theorem State.bufferLoaded_of_discarded {s : State} {k : SlotId} (h : (s.slot k).discarded = true)
    (d : Block128) : s.bufferLoaded k d = ((s.freeSlot k).settleStop, []) :=
  if_pos h

theorem State.recordArrived_of_live {s : State} {k : SlotId} (h : (s.slot k).discarded = false)
    (d : Block64) : s.recordArrived k d = (s.setSlot k { s.slot k with record := some d },
      if s.considerationPoint = some k then [.consider] else []) := by
  rw [State.recordArrived, if_neg (by simp [h])]
  simp only [beq_iff_eq]
  rfl

/-- Settles O25: a record that waits for its turn, and what arrives for a discarded slot. -/
theorem recordArrivalWaitsForItsTurn : Obligations.RecordArrivalWaitsForItsTurn := by
  refine ⟨fun s tag a k d awaits kind live away law => ?_,
    fun s tag a k d e c awaits stopping abandon discarded arrives => ?_⟩
  · have arrived : (s.endAccess tag).recordArrived k d
        = ((s.endAccess tag).setSlot k { s.slot k with record := some d }, []) :=
      (State.recordArrived_of_live (s := s.endAccess tag) live d).trans (congrArg _ (if_neg away))
    rw [exec_recordArrival awaits kind, arrived, settle_nil]
    exact congrArg Host.Outcome.next (State.closeEvent_of_ec law rfl rfl rfl)
  · have drains : (((s.endAccess tag).freed k)).drainsAbandoned
        ((s.endAccess tag).freeSlot k).settleStop.closeEvent :=
      State.drainsAbandoned_settleStop (u := (s.endAccess tag).freed k) stopping abandon
    refine ⟨_, ?_, drains⟩
    rcases arrives with ⟨kind, rfl⟩ | ⟨kind, rfl⟩
    · rw [exec_recordArrival awaits kind,
        State.recordArrived_of_discarded (s := s.endAccess tag) discarded, settle_nil]
      rfl
    · rw [exec_loadCompletion awaits kind,
        State.bufferLoaded_of_discarded (s := s.endAccess tag) discarded, settle_nil]
      rfl

/-! ## The consideration point and the key guard (R81, R83) -/

/-- The consideration point is a slot whose considered mark is clear. -/
theorem State.considered_of_point {s : State} {k : SlotId} (h : s.considerationPoint = some k) :
    (s.slot k).considered = false := by
  simpa using List.find?_some h

/-- The point stays while the ages and the considered marks do. -/
theorem State.considerationPoint_congr {s t : State} (age : t.rt.age = s.rt.age)
    (marks : ∀ j, (t.slot j).considered = (s.slot j).considered) :
    t.considerationPoint = s.considerationPoint := by
  simp only [State.considerationPoint, age, marks]

theorem State.considered_setSlot {s : State} {k : SlotId} {x : Slot}
    (h : x.considered = (s.slot k).considered) (j : SlotId) :
    ((s.setSlot k x).slot j).considered = (s.slot j).considered := by
  by_cases here : j = k
  · rw [here, State.slot_setSlot_self, h]
  · rw [State.slot_setSlot_of_ne s x here]

theorem State.ne_of_olderThan {s : State} {j k : SlotId} (h : j ∈ s.olderThan k) : j ≠ k := by
  simpa using List.mem_takeWhile_imp h

/-- Whether a key is held depends on the older slots alone. -/
theorem State.keyHeld_of_onlySlot {s t : State} {k : SlotId} (age : t.rt.age = s.rt.age)
    (slots : s.onlySlot t k) (key : Key) : t.keyHeld k key = s.keyHeld k key := by
  have older : t.olderThan k = s.olderThan k := by rw [State.olderThan, State.olderThan, age]
  rw [State.keyHeld, State.keyHeld, older]
  refine Bool.eq_iff_iff.mpr ?_
  simp only [List.any_eq_true]
  refine exists_congr fun j => and_congr_right fun mem => ?_
  rw [slots j (State.ne_of_olderThan mem)]

theorem SlotState.guards_iff (x : SlotState) :
    x.guards = true ↔ x = .waitingKey ∨ x = .visiting ∨ x = .awaitingWrite := by
  cases x <;> simp [SlotState.guards]

theorem Slot.guardKey_eq_some_iff (x : Slot) (key : Key) : x.guardKey = some key ↔
    ∃ r, x.request = some r ∧ r.kind.keyed = true ∧ r.key = key := by
  cases h : x.request <;> simp [Slot.guardKey, h]

theorem State.keyHeld_iff (s : State) (k : SlotId) (key : Key) : s.keyHeld k key = true ↔
    ∃ j ∈ s.olderThan k, ((s.slot j).state = .waitingKey ∨ (s.slot j).state = .visiting
        ∨ (s.slot j).state = .awaitingWrite)
      ∧ ∃ r, (s.slot j).request = some r ∧ r.kind.keyed = true ∧ r.key = key := by
  simp only [State.keyHeld, List.any_eq_true, Bool.and_eq_true, beq_iff_eq, SlotState.guards_iff,
    Slot.guardKey_eq_some_iff]

/-! ## Treatment of the slot at the point (R81, R83, R85) -/

theorem State.considerNext_of_point {s : State} {k : SlotId} {d : Block64}
    (point : s.considerationPoint = some k) (record : (s.slot k).record = some d) :
    s.considerNext = (s.setSlot k { s.slot k with considered := true }).treat k d := by
  unfold State.considerNext
  rw [point]
  dsimp only
  split
  case h_1 d' arrived =>
    cases arrived.symm.trans record
    rfl
  case h_2 absent =>
    rw [record] at absent
    cases absent

/-- The hold set: HELD, undecoded (R85). -/
theorem State.treat_of_hold {s : State} (hold : s.rt.hold.isSome = true) (k : SlotId)
    (d : Block64) :
    s.treat k d = (s.setSlot k { s.slot k with state := .held }, [.consider]) :=
  if_pos hold

theorem State.treat_of_bad {s : State} {d : Block64} (hold : s.rt.hold = none)
    (bad : decodeRecord s.tl.size d = none) (k : SlotId) :
    s.treat k d = (s, [.finish k (.bare .badRequest), .consider]) := by
  simp [State.treat, hold, bad]

theorem State.treat_of_good {s : State} {d : Block64} {r : Request} (hold : s.rt.hold = none)
    (good : decodeRecord s.tl.size d = some r) (k : SlotId) : s.treat k d = s.letIn k r := by
  simp [State.treat, hold, good]

/-- A keyed request whose key is held waits (R83). -/
theorem State.letIn_of_held {s : State} {k : SlotId} {r : Request} (keyed : r.kind.keyed = true)
    (held : s.keyHeld k r.key = true) : s.letIn k r =
      (s.setSlot k { s.slot k with request := some r, state := .waitingKey }, [.consider]) := by
  simp only [State.letIn, keyed, held, if_true, State.modifySlot, State.slot_setSlot_self,
    State.setSlot_setSlot]

theorem State.letIn_of_free {s : State} {k : SlotId} {r : Request} (keyed : r.kind.keyed = true)
    (free : s.keyHeld k r.key = false) : s.letIn k r =
      (s.setSlot k { s.slot k with request := some r }, [.dispatch k, .consider]) := by
  simp only [State.letIn, keyed, free, if_true, Bool.false_eq_true, if_false]
  rfl

/-- A fencing request takes the hold (R85). -/
theorem State.letIn_of_fencing {s : State} {k : SlotId} {r : Request}
    (fencing : r.kind.keyed = false) : s.letIn k r =
      ((s.setSlot k { s.slot k with request := some r }).takeHold k r, [.owner, .consider]) := by
  simp only [State.letIn, fencing, Bool.false_eq_true, if_false]
  rfl

/-- From `s` to `u` the access of this tag has ended and slot `k` has become `x`; nothing else has
changed, but for accesses that were issued. -/
structure State.Treats (s u : State) (tag : Nat) (k : SlotId) (x : Slot) : Prop where
  slot : u.slot k = x
  onlySlot : s.onlySlot u k
  hold : u.rt.hold = s.rt.hold
  age : u.rt.age = s.rt.age
  ec : u.ec = s.ec
  cu : u.cu = s.cu
  tl : u.tl = s.tl
  bc : u.bc = s.bc
  mc : u.mc = s.mc
  window : s.sameWindow u
  ends : s.endsAccess tag u

namespace State.Treats

variable {s u : State} {tag : Nat} {k : SlotId} {x : Slot}

theorem of_setSlot (s : State) (tag : Nat) (k : SlotId) (x : Slot) :
    s.Treats ((s.endAccess tag).setSlot k x) tag k x where
  slot := State.slot_setSlot_self _ k x
  onlySlot _ other := State.slot_setSlot_of_ne (s.endAccess tag) x other
  hold := rfl
  age := rfl
  ec := rfl
  cu := rfl
  tl := rfl
  bc := rfl
  mc := rfl
  window := ⟨rfl, rfl, rfl, rfl⟩
  ends := State.endsAccess_of_eq rfl

theorem issueWrite (h : s.Treats u tag k x) (kind : AccessKind) (addr : Addr) (data : List Byte) :
    s.Treats (u.issueWrite kind addr data) tag k x where
  slot := h.slot
  onlySlot := h.onlySlot
  hold := h.hold
  age := h.age
  ec := h.ec
  cu := h.cu
  tl := h.tl
  bc := h.bc
  mc := h.mc
  window := h.window
  ends := List.IsPrefix.trans h.ends (State.keepsAccesses_append
    (State.issueWrite_accesses u kind addr data))

/-- The event closes: at most a status write is added. -/
theorem close (h : s.Treats u tag k x) : s.endsAccess tag u.closeEvent ∧ s.sameWindow u.closeEvent
    ∧ u.closeEvent.ec = { s.ec with status := u.closeEvent.ec.status } ∧ u.closeEvent.cu = s.cu
    ∧ u.closeEvent.tl = s.tl ∧ u.closeEvent.bc = s.bc ∧ u.closeEvent.mc = s.mc
    ∧ u.closeEvent.rt.hold = s.rt.hold ∧ u.closeEvent.rt.age = s.rt.age
    ∧ s.onlySlot u.closeEvent k := by
  have slots : ∀ j, u.closeEvent.slot j = u.slot j := State.slot_of_rt (State.closeEvent_rt u)
  refine ⟨h.ends.close, h.window.close, ?_, ?_, ?_, ?_, ?_, ?_, ?_, fun j other => ?_⟩
  · apply EngineControl.ext <;> simp [h.ec]
  · rw [State.closeEvent_cu, h.cu]
  · rw [State.closeEvent_tl, h.tl]
  · rw [State.closeEvent_bc, h.bc]
  · rw [State.closeEvent_mc, h.mc]
  · rw [State.closeEvent_rt, h.hold]
  · rw [State.closeEvent_rt, h.age]
  · rw [slots, h.onlySlot j other]

end State.Treats

/-- Once slot `k` is considered, and no record has arrived behind it, consideration rests (R81). -/
theorem State.considerNext_of_onlySlot {s u : State} {k : SlotId} (slots : s.onlySlot u k)
    (considered : (u.slot k).considered = true)
    (behind : ∀ j : SlotId, j ≠ k → (s.slot j).record = none ∨ (s.slot j).considered = true) :
    u.considerNext = (u, []) := by
  refine State.considerNext_of_none fun j point => ?_
  have unconsidered := State.considered_of_point point
  by_cases here : j = k
  · rw [here, considered] at unconsidered
    cases unconsidered
  · rw [slots j here] at unconsidered ⊢
    rcases behind j here with absent | marked
    · exact absent
    · rw [marked] at unconsidered
      cases unconsidered

theorem State.Treats.considerNext {s u : State} {tag : Nat} {k : SlotId} {x : Slot}
    (h : s.Treats u tag k x) (considered : x.considered = true)
    (behind : ∀ j : SlotId, j ≠ k → (s.slot j).record = none ∨ (s.slot j).considered = true) :
    u.considerNext = (u, []) :=
  State.considerNext_of_onlySlot h.onlySlot (by rw [h.slot, considered]) behind

/-- The record of the slot at the point arrives: the slot is considered and treated (R81). -/
theorem exec_recordArrival_of_point {s : State} {tag : Nat} {a : BusAccess} {k : SlotId}
    {d : Block64} (awaits : s.awaits tag a) (kind : a.kind = .recordRead k)
    (live : (s.slot k).discarded = false) (point : s.considerationPoint = some k)
    {u : State} {tasks : List Task}
    (treated : ((s.endAccess tag).setSlot k { s.slot k with
      record := some d, considered := true }).treat k d = (u, tasks)) :
    exec (.recordArrival tag d) s = outcomeOf ((runTasks (99979 + 20) tasks u).map
      State.closeEvent) := by
  have arrived : (s.endAccess tag).recordArrived k d
      = ((s.endAccess tag).setSlot k { s.slot k with record := some d }, [.consider]) :=
    (State.recordArrived_of_live (s := s.endAccess tag) live d).trans (congrArg _ (if_pos point))
  have point' : ((s.endAccess tag).setSlot k { s.slot k with record := some d }).considerationPoint
      = some k :=
    (State.considerationPoint_congr (s := s.endAccess tag)
      (t := (s.endAccess tag).setSlot k { s.slot k with record := some d }) rfl
      (State.considered_setSlot rfl)).trans point
  have considered := State.considerNext_of_point (d := d) point'
    (by rw [State.slot_setSlot_self])
  rw [State.slot_setSlot_self, State.setSlot_setSlot] at considered
  have considered' := considered.trans treated
  rw [exec_recordArrival awaits kind, arrived]
  generalize (s.endAccess tag).setSlot k { s.slot k with record := some d } = v at considered'
  simp only [settle, cascadeBound_eq, runTasks_cons, runTask, considered', List.append_nil]

end Sys2Proof.Machine
end


section
/-! Decode of a request record (R82, R175), and consideration as the statements tell it (R81 to
R86). -/

namespace Sys2Proof.Machine

/-! ## Decode (R82, R175) -/

theorem recordFlags_shift (d : Block64) : recordFlags d >>> 4 = 0 ↔ field d 1 1 < 16 := by
  have flags : (recordFlags d).toNat = field d 1 1 := rfl
  rw [← BitVec.toNat_inj, BitVec.toNat_ushiftRight, flags, Nat.shiftRight_eq_div_pow]
  simp

/-- A kind code is assigned (R175). -/
theorem kindOf_isSome_iff (code : Nat) (flags : Byte) : (kindOf code flags).isSome = true ↔
    1 ≤ code ∧ code ≤ 9 ∧ (code = 2 → flags.toNat % 4 ≠ 3) := by
  have mode : (flags.extractLsb' 0 2).toNat = flags.toNat % 4 := by
    rw [toNat_extractLsb']
    simp
  have modes : (insertModeOf (flags.toNat % 4)).isSome = true ↔ flags.toNat % 4 ≠ 3 := by
    have : flags.toNat % 4 < 4 := Nat.mod_lt _ (by decide)
    generalize flags.toNat % 4 = m at *
    interval_cases m <;> simp [insertModeOf]
  unfold kindOf
  split
  case h_2 => simp [mode, modes]
  case h_10 =>
    have none : ¬(1 ≤ code ∧ code ≤ 9) := by
      simp only [imp_false] at *
      omega
    exact ⟨fun h => (by cases h), fun ⟨least, most, _⟩ => absurd ⟨least, most⟩ none⟩
  all_goals simp

/-- What each kind is encoded as (R175). -/
theorem kindOf_eq_some {code : Nat} {flags : Byte} {kind : Kind}
    (h : kindOf code flags = some kind) :
    (kind = .lookup ↔ code = 1)
      ∧ (kind = .insert .add ↔ code = 2 ∧ flags.toNat % 4 = 0)
      ∧ (kind = .insert .replace ↔ code = 2 ∧ flags.toNat % 4 = 1)
      ∧ (kind = .insert .upsert ↔ code = 2 ∧ flags.toNat % 4 = 2)
      ∧ (kind = .delete ↔ code = 3)
      ∧ (∀ create clamp, kind = .accumulate create clamp ↔ code = 4
          ∧ create = flags.toNat.testBit 2 ∧ clamp = flags.toNat.testBit 3)
      ∧ (kind = .fence ↔ code = 5) ∧ (kind = .flush ↔ code = 6) ∧ (kind = .rawRead ↔ code = 7)
      ∧ (kind = .rawWrite ↔ code = 8) ∧ (kind = .repair ↔ code = 9) := by
  have mode : (flags.extractLsb' 0 2).toNat = flags.toNat % 4 := by
    rw [toNat_extractLsb']
    simp
  unfold kindOf at h
  split at h
  case h_2 =>
    rw [mode] at h
    unfold insertModeOf at h
    split at h <;> simp_all <;> cases h <;> simp
  case h_4 =>
    cases h
    simp [BitVec.getLsbD, eq_comm]
  all_goals cases h
  all_goals simp

theorem decodeRecord_eq_some_iff (size : Nat) (d : Block64) (r : Request) :
    decodeRecord size d = some r ↔ field d 1 1 < 16 ∧ kindOf (field d 0 1) (recordFlags d) =
      some r.kind
      ∧ r.key = recordKey d ∧ r.operand = recordOperand d ∧ r.operandsPass size = true := by
  unfold decodeRecord
  by_cases flags : field d 1 1 < 16
  · rw [if_neg (by simpa using (recordFlags_shift d).mpr flags), Option.bind_eq_some_iff]
    constructor
    · rintro ⟨kind, known, passed⟩
      dsimp only at passed
      split at passed
      case isTrue pass =>
        cases passed
        exact ⟨flags, known, rfl, rfl, pass⟩
      case isFalse => cases passed
    · rintro ⟨-, known, key, operand, pass⟩
      obtain ⟨kind, k, o⟩ := r
      subst key operand
      exact ⟨kind, known, if_pos pass⟩
  · rw [if_pos (by simpa using fun e => flags ((recordFlags_shift d).mp e))]
    simp [flags]

theorem bucket_of_key (d : Block64) : ((recordKey d).extractLsb' 0 64).toNat = field d 8 8 := by
  have same : (recordKey d).extractLsb' 0 64 = d.extractLsb' 64 64 := by
    apply BitVec.eq_of_getLsbD_eq
    intro i inside
    have : i < 128 := by omega
    simp [recordKey, inside, this]
  rw [same]
  rfl

theorem Request.operandsPass_iff {r : Request} {d : Block64} (key : r.key = recordKey d)
    (operand : r.operand = recordOperand d) (size : Nat) : r.operandsPass size = true ↔
      (r.kind = .rawRead ∨ r.kind = .rawWrite → field d 8 8 < 2 ^ size ∧ field d 24 8 % 64 = 0)
        ∧ (r.kind = .repair → field d 24 8 < 2 ^ size) := by
  have aligned : aligned64 (recordOperand d) = true ↔ field d 24 8 % 64 = 0 := aligned64_iff _
  have bucket : (recordOperand d).toNat = field d 24 8 := rfl
  have bucket' : (r.key.extractLsb' 0 64).toNat = field d 8 8 := by rw [key, bucket_of_key]
  cases kind : r.kind <;>
    simp only [Request.operandsPass, Request.bucket, kind, operand, bucket', aligned, bucket,
      Bool.and_eq_true, decide_eq_true_eq] <;> simp

/-- What the request of a record says (R82, R175). -/
theorem decodeRecord_fields {size : Nat} {d : Block64} {r : Request}
    (h : decodeRecord size d = some r) :
    r.key = d.extractLsb' 64 128 ∧ r.operand.toNat = field d 24 8
      ∧ (r.kind = .lookup ↔ field d 0 1 = 1)
      ∧ (r.kind = .insert .add ↔ field d 0 1 = 2 ∧ field d 1 1 % 4 = 0)
      ∧ (r.kind = .insert .replace ↔ field d 0 1 = 2 ∧ field d 1 1 % 4 = 1)
      ∧ (r.kind = .insert .upsert ↔ field d 0 1 = 2 ∧ field d 1 1 % 4 = 2)
      ∧ (r.kind = .delete ↔ field d 0 1 = 3)
      ∧ (∀ create clamp, r.kind = .accumulate create clamp ↔ field d 0 1 = 4
          ∧ create = (field d 1 1).testBit 2 ∧ clamp = (field d 1 1).testBit 3)
      ∧ (r.kind = .fence ↔ field d 0 1 = 5) ∧ (r.kind = .flush ↔ field d 0 1 = 6)
      ∧ (r.kind = .rawRead ↔ field d 0 1 = 7 ∧ r.bucket = field d 8 8)
      ∧ (r.kind = .rawWrite ↔ field d 0 1 = 8 ∧ r.bucket = field d 8 8)
      ∧ (r.kind = .repair ↔ field d 0 1 = 9 ∧ r.bucket = field d 24 8) := by
  obtain ⟨-, known, key, operand, -⟩ := (decodeRecord_eq_some_iff size d r).mp h
  obtain ⟨lookup, add, replace, upsert, delete, accumulate, fence, flush, rawRead, rawWrite,
      repair⟩ :=
    kindOf_eq_some known
  have keyed : r.kind ≠ .repair → r.bucket = field d 8 8 := fun other => by
    rw [← bucket_of_key, ← key]
    unfold Request.bucket
    split
    case h_1 is => exact absurd is other
    case h_2 => rfl
  have repaired : r.kind = .repair → r.bucket = field d 24 8 := fun is => by
    rw [Request.bucket, is, operand]
    rfl
  refine ⟨key, by rw [operand]; rfl, lookup, add, replace, upsert, delete, accumulate, fence, flush,
    ⟨fun is => ⟨rawRead.mp is, keyed (by simp [is])⟩, fun is => rawRead.mpr is.1⟩,
    ⟨fun is => ⟨rawWrite.mp is, keyed (by simp [is])⟩, fun is => rawWrite.mpr is.1⟩,
    ⟨fun is => ⟨repair.mp is, repaired is⟩, fun is => repair.mpr is.1⟩⟩

/-- The checks of decode (R82). -/
theorem decodeRecord_isSome_iff (size : Nat) (d : Block64) : (decodeRecord size d).isSome = true ↔
    1 ≤ field d 0 1 ∧ field d 0 1 ≤ 9 ∧ field d 1 1 < 16
      ∧ (field d 0 1 = 2 → field d 1 1 % 4 ≠ 3)
      ∧ (field d 0 1 = 7 ∨ field d 0 1 = 8 → field d 8 8 < 2 ^ size ∧ field d 24 8 % 64 = 0)
      ∧ (field d 0 1 = 9 → field d 24 8 < 2 ^ size) := by
  have passes : ∀ kind, kindOf (field d 0 1) (recordFlags d) = some kind →
      ((⟨kind, recordKey d, recordOperand d⟩ : Request).operandsPass size = true ↔
        (field d 0 1 = 7 ∨ field d 0 1 = 8 → field d 8 8 < 2 ^ size ∧ field d 24 8 % 64 = 0)
          ∧ (field d 0 1 = 9 → field d 24 8 < 2 ^ size)) := fun kind known => by
    obtain ⟨-, -, -, -, -, -, -, -, rawRead, rawWrite, repair⟩ := kindOf_eq_some known
    rw [Request.operandsPass_iff rfl rfl, rawRead, rawWrite, repair]
  have assigned := kindOf_isSome_iff (field d 0 1) (recordFlags d)
  rw [Option.isSome_iff_exists] at assigned ⊢
  constructor
  · rintro ⟨r, decoded⟩
    obtain ⟨flags, known, key, operand, pass⟩ := (decodeRecord_eq_some_iff size d r).mp decoded
    obtain ⟨least, most, mode⟩ := assigned.mp ⟨_, known⟩
    obtain ⟨kind, k, o⟩ := r
    subst key operand
    exact ⟨least, most, flags, mode, (passes _ known).mp pass⟩
  · rintro ⟨least, most, flags, mode, operands⟩
    obtain ⟨kind, known⟩ := assigned.mpr ⟨least, most, mode⟩
    exact ⟨⟨kind, recordKey d, recordOperand d⟩, (decodeRecord_eq_some_iff size d _).mpr
      ⟨flags, known, rfl, rfl, (passes kind known).mpr operands⟩⟩

/-! ## Consideration -/

/-- The slot of a request that consideration lets in (R81). -/
def Slot.letIn (x : Slot) (r : Request) : Slot := { x with considered := true, request := some r }

/-- The state whose fence hold request `k` owns (R85). -/
def State.fenced (s : State) (k : SlotId) : State := { s with rt := { s.rt with hold := some k } }

theorem State.slot_fenced (s : State) (k j : SlotId) : (s.fenced k).slot j = s.slot j := rfl

/-- A fencing request that becomes the owner of the hold (R85, R86). -/
theorem State.takeHold_eq (s : State) (k : SlotId) (r : Request) : s.takeHold k r =
    if r.kind = .rawWrite then (s.fenced k).startLoad k r
    else (s.fenced k).setSlot k { (s.fenced k).slot k with state := .held } := by
  unfold State.takeHold
  dsimp only
  split
  case h_1 raw =>
    rw [if_pos raw]
    rfl
  case h_2 other =>
    rw [if_neg other]
    rfl

theorem State.startLoad_of_mayIssue {s : State} (may : s.mayIssue = true) (k : SlotId)
    (r : Request) : s.startLoad k r =
      (s.setSlot k { s.slot k with state := .loading, transfer := .outstanding }).issueRead
        (.bufferRead k) r.operand 128 :=
  if_pos may

theorem State.startLoad_of_not_mayIssue {s : State} (may : ¬s.mayIssue = true) (k : SlotId)
    (r : Request) : s.startLoad k r =
      s.setSlot k { s.slot k with state := .loading, transfer := .waiting } :=
  if_neg may

/-- What the event of a record at the point leaves, and what more holds of the state it closes. -/
theorem State.Treats.conclude {s u : State} {tag : Nat} {k : SlotId} {x : Slot} {c : Instr}
    {Q : State → Prop} (h : s.Treats u tag k x) (event : exec c s = .next u.closeEvent)
    (more : Q u.closeEvent) : ∃ t, exec c s = .next t ∧ s.endsAccess tag t ∧ s.sameWindow t
      ∧ t.ec = { s.ec with status := t.ec.status } ∧ t.cu = s.cu ∧ t.tl = s.tl ∧ t.bc = s.bc
      ∧ t.mc = s.mc ∧ t.rt.hold = s.rt.hold ∧ t.rt.age = s.rt.age ∧ s.onlySlot t k ∧ Q t := by
  obtain ⟨ends, window, ec, cu, tl, bc, mc, hold, age, slots⟩ := h.close
  exact ⟨_, event, ends, window, ec, cu, tl, bc, mc, hold, age, slots, more⟩

/-- A slot at the point whose record has arrived, not yet treated (R81). -/
def Slot.atPoint (x : Slot) (d : Block64) : Slot := { x with record := some d, considered := true }

/-- The slot of a record that has been treated: consideration rests, and the event closes. -/
theorem exec_recordArrival_of_treated {s u : State} {tag : Nat} {a : BusAccess} {k : SlotId}
    {d : Block64} {x : Slot} (awaits : s.awaits tag a) (kind : a.kind = .recordRead k)
    (live : (s.slot k).discarded = false) (point : s.considerationPoint = some k)
    (behind : ∀ j : SlotId, j ≠ k → (s.slot j).record = none ∨ (s.slot j).considered = true)
    (treated : ((s.endAccess tag).setSlot k ((s.slot k).atPoint d)).treat k d = (u, [.consider]))
    (treats : s.Treats u tag k x) (considered : x.considered = true) :
    exec (.recordArrival tag d) s = .next u.closeEvent := by
  have rests := treats.considerNext considered behind
  rw [exec_recordArrival_of_point awaits kind live point treated]
  simp only [runTasks_cons, runTask, rests, List.append_nil, runTasks_nil]
  rfl

/-- A record at the point that fails decode is answered at once (R82). -/
theorem exec_recordArrival_of_bad {s : State} {tag : Nat} {a : BusAccess} {k : SlotId}
    {d : Block64} (awaits : s.awaits tag a) (kind : a.kind = .recordRead k)
    (live : (s.slot k).discarded = false) (point : s.considerationPoint = some k)
    (behind : ∀ j : SlotId, j ≠ k → (s.slot j).record = none ∨ (s.slot j).considered = true)
    (running : s.ec.engine = .running) (unread : (s.slot k).request = none)
    (hold : s.rt.hold = none) (bad : decodeRecord s.tl.size d = none) :
    ∃ u, exec (.recordArrival tag d) s = .next u.closeEvent
      ∧ s.Treats u tag k (((s.slot k).atPoint d).reports (.bare .badRequest))
      ∧ u.hasIssued (.resultWrite k) (recordAddr (s.slot k).batch (s.slot k).index + 40) 16
          (resultBytes (.bare .badRequest)) := by
  have treated := State.treat_of_bad (s := (s.endAccess tag).setSlot k ((s.slot k).atPoint d))
    (d := d) hold bad k
  have event := exec_recordArrival_of_point awaits kind live point treated
  have slot := State.slot_setSlot_self (s.endAccess tag) k ((s.slot k).atPoint d)
  have issued := State.hasIssued_answered
    ((s.endAccess tag).setSlot k ((s.slot k).atPoint d)) k (.bare .badRequest)
  have treats : s.Treats (((s.endAccess tag).setSlot k ((s.slot k).atPoint d)).answered k
      (.bare .badRequest)) tag k (((s.slot k).atPoint d).reports (.bare .badRequest)) := by
    unfold State.answered
    rw [slot, State.setSlot_setSlot]
    exact (State.Treats.of_setSlot s tag k _).issueWrite _ _ _
  have finished := State.finishSlot_of_running
    (s := (s.endAccess tag).setSlot k ((s.slot k).atPoint d)) running k (.bare .badRequest)
  rw [slot] at issued
  generalize (s.endAccess tag).setSlot k ((s.slot k).atPoint d) = v at *
  have finishes : v.finishRequest k (.bare .badRequest)
      = (v.answered k (.bare .badRequest), [.owner]) := by
    have noKey : (v.slot k).guardKey = none := by
      rw [slot, Slot.guardKey]
      exact (congrArg (Option.bind · _) unread).trans rfl
    have noHold : v.rt.hold = none := treats.hold.trans hold
    simp only [State.finishRequest, finished, noHold, noKey, State.releaseKey]
    rfl
  have unowned : (v.answered k (.bare .badRequest)).checkOwner =
      (v.answered k (.bare .badRequest), []) :=
    State.checkOwner_of_none (treats.hold.trans hold)
  have rests := treats.considerNext rfl behind
  refine ⟨v.answered k (.bare .badRequest), event.trans ?_, treats, issued⟩
  simp only [runTasks_cons, runTask, finishes, unowned, rests, List.append_nil, List.cons_append,
    List.nil_append, runTasks_nil]
  rfl

/-- Settles O26: the record at the point, the request that takes the hold, decode, and the key
guard. -/
theorem recordArrivalIsConsidered : Obligations.RecordArrivalIsConsidered := by
  refine ⟨fun s tag a k d awaits kind live point fetching unread running behind case => ?arrives,
    fun s k d r point record hold good fencing => ?fencing,
    fun size d => ⟨decodeRecord_isSome_iff size d, fun r => decodeRecord_fields⟩,
    State.keyHeld_iff⟩
  case arrives =>
    have slot := State.slot_setSlot_self (s.endAccess tag) k ((s.slot k).atPoint d)
    rcases Option.eq_none_or_eq_some s.rt.hold with held | ⟨o, held⟩
    case inr =>
      have treated := State.treat_of_hold (s := (s.endAccess tag).setSlot k ((s.slot k).atPoint d))
        (by simp [held]) k d
      rw [slot, State.setSlot_setSlot] at treated
      have treats := State.Treats.of_setSlot s tag k { (s.slot k).atPoint d with state := .held }
      refine treats.conclude (exec_recordArrival_of_treated awaits kind live point behind treated
        treats rfl) ?_
      refine ⟨fun _ => ?_, fun h => absurd h (by simp [held]), fun r h => absurd h (by simp [held])⟩
      exact (State.slot_of_rt (State.closeEvent_rt _) k).trans treats.slot
    case inl =>
      rcases Option.eq_none_or_eq_some (decodeRecord s.tl.size d) with decoded | ⟨r, decoded⟩
      case inl =>
        obtain ⟨u, event, treats, issued⟩ := exec_recordArrival_of_bad awaits kind live point behind
          running unread held decoded
        have own := (State.slot_of_rt (State.closeEvent_rt u) k).trans treats.slot
        refine treats.conclude event ?_
        exact ⟨fun h => absurd h (by simp [held]), fun _ _ => ⟨congrArg Slot.state own,
          congrArg Slot.result own, issued.closeEvent⟩, fun r _ h => absurd h (by simp [decoded])⟩
      case inr =>
        obtain ⟨keyed, keyHeld⟩ : r.kind.keyed = true ∧ s.keyHeld k r.key = true := by
          obtain hold | bad | ⟨r', good, keyed, keyHeld⟩ := case
          · rw [held] at hold
            cases hold
          · rw [decoded] at bad
            cases bad
          · cases decoded.symm.trans good
            exact ⟨keyed, keyHeld⟩
        have treated := (State.treat_of_good
          (s := (s.endAccess tag).setSlot k ((s.slot k).atPoint d)) held decoded k).trans
          (State.letIn_of_held keyed ((State.keyHeld_of_onlySlot (s := s)
            (t := (s.endAccess tag).setSlot k ((s.slot k).atPoint d))
            rfl (State.Treats.of_setSlot s tag k _).onlySlot r.key).trans keyHeld))
        rw [slot, State.setSlot_setSlot] at treated
        have treats := State.Treats.of_setSlot s tag k
          { (s.slot k).atPoint d with request := some r, state := .waitingKey }
        refine treats.conclude (exec_recordArrival_of_treated awaits kind live point behind treated
          treats rfl) ?_
        refine ⟨fun h => absurd h (by simp [held]), fun _ h => absurd h (by simp [decoded]),
          fun r' _ h _ _ => ?_⟩
        cases decoded.symm.trans h
        exact (State.slot_of_rt (State.closeEvent_rt _) k).trans treats.slot
  case fencing =>
    have considers := (State.considerNext_of_point point record).trans
      ((State.treat_of_good (s := s.setSlot k { s.slot k with considered := true })
        hold good k).trans
        (State.letIn_of_fencing fencing))
    rw [State.slot_setSlot_self, State.setSlot_setSlot] at considers
    have takes : runTask .consider s
        = ((s.setSlot k ((s.slot k).letIn r)).takeHold k r, [.owner, .consider]) := considers
    have may' : ((s.setSlot k ((s.slot k).letIn r)).fenced k).mayIssue = s.mayIssue := rfl
    have slot := State.slot_setSlot_self s k ((s.slot k).letIn r)
    have others : ∀ x : Slot,
        s.onlySlot (((s.setSlot k ((s.slot k).letIn r)).fenced k).setSlot k x) k := fun x =>
      (State.onlySlot_setSlot s k _).trans (State.onlySlot_setSlot
        ((s.setSlot k ((s.slot k).letIn r)).fenced k) k x)
    have own : ∀ x : Slot,
        (((s.setSlot k ((s.slot k).letIn r)).fenced k).setSlot k x).slot k = x :=
      State.slot_setSlot_self _ k
    rw [State.takeHold_eq] at takes
    by_cases raw : r.kind = .rawWrite
    · rw [if_pos raw] at takes
      by_cases may : s.mayIssue = true
      · rw [State.startLoad_of_mayIssue (may'.trans may)] at takes
        refine ⟨_, takes, others _, rfl, fun h => absurd raw h,
          fun _ h => absurd may (by simp [h]), fun _ _ => ⟨?_, ?_, ?_⟩⟩
        · exact State.keepsAccesses_append (State.issueRead_accesses _ _ _ _)
        · exact State.hasIssued_issueRead _ _ _ _
        · refine (own _).trans ?_
          rw [State.slot_fenced, slot]
          rfl
      · rw [State.startLoad_of_not_mayIssue (by rwa [may'])] at takes
        refine ⟨_, takes, others _, rfl, fun h => absurd raw h, fun _ _ => ⟨rfl, ?_⟩,
          fun _ h => absurd h may⟩
        refine (own _).trans ?_
        rw [State.slot_fenced, slot]
        rfl
    · rw [if_neg raw] at takes
      refine ⟨_, takes, others _, rfl, fun _ => ⟨rfl, ?_⟩, fun h => absurd h raw,
        fun h => absurd h raw⟩
      refine (own _).trans ?_
      rw [State.slot_fenced, slot]
      rfl

end Sys2Proof.Machine
end


section
/-! Arrivals at the cache (R45, R46, R49, R58, R59), the owner of the fence hold (R85), and the
image of a RAW_WRITE (R86). -/

namespace Sys2Proof.Machine

/-! ## A visit joins a line or waits (R45, R46, R49) -/

/-- The visit joins the queue of its line; a claim is withdrawn (R46, R58). -/
theorem State.hit_eq (s : State) (i : SetId) (w : Way) (k : SlotId) : s.hit i w k =
    (s.setLine i w { s.line i w with waiters := (s.line i w).waiters ++ [k], claim := none },
      match (s.line i w).claim with
      | some j => [.rechoose j, .retry i]
      | none => []) := by
  unfold State.hit State.modifyLine
  cases (s.line i w).claim <;> rfl

theorem State.hit_of_unclaimed {s : State} {i : SetId} {w : Way}
    (unclaimed : (s.line i w).claim = none)
    (k : SlotId) : s.hit i w k =
      (s.setLine i w { s.line i w with waiters := (s.line i w).waiters ++ [k] }, []) := by
  rw [State.hit_eq, unclaimed]
  refine congrArg (fun l => (s.setLine i w l, [])) ?_
  rw [Line.ext_iff]
  exact ⟨rfl, rfl, rfl, rfl, rfl, rfl, unclaimed.symm⟩

/-- The set's list with request `k` at its tail (R49). -/
def State.behind (s : State) (i : SetId) (k : SlotId) : State :=
  s.putSet i { s.cacheSet i with waiting := (s.cacheSet i).waiting ++ [k] }

theorem State.joinWaiting_eq {s : State} {k : SlotId} {b : Bucket} (visits : s.visitBucket k = b) :
    s.joinWaiting k = s.behind (setOf b) k := by
  subst visits
  rfl

theorem State.obtainLine_of_behind {s : State} {k : SlotId} {b : Bucket}
    (visits : s.visitBucket k = b)
    (ahead : s.claimedFor (setOf b) b = true ∨ (s.cacheSet (setOf b)).waiting ≠ []) :
    s.obtainLine k = (s.behind (setOf b) k, []) := by
  have joins := State.joinWaiting_eq visits
  subst visits
  rw [State.obtainLine, if_pos (by simpa using ahead), joins]

theorem State.obtainLine_of_first {s : State} {k : SlotId} {b : Bucket}
    (visits : s.visitBucket k = b) (unclaimed : s.claimedFor (setOf b) b = false)
    (alone : (s.cacheSet (setOf b)).waiting = []) :
    s.obtainLine k = (s.takeLine k).getD (s.behind (setOf b) k, []) := by
  have joins := State.joinWaiting_eq visits
  subst visits
  rw [State.obtainLine, if_neg (by simp [unclaimed, alone]), joins]

theorem State.takeLine_of_allocate {s : State} {k : SlotId} {b : Bucket} {w : Way}
    (visits : s.visitBucket k = b) (choice : (s.cacheSet (setOf b)).choose = .allocate w) :
    s.takeLine k = some (s.allocate (setOf b) w k) := by
  subst visits
  simp only [State.takeLine, choice]

theorem State.takeLine_of_castout {s : State} {k : SlotId} {b : Bucket} {w : Way}
    (visits : s.visitBucket k = b) (choice : (s.cacheSet (setOf b)).choose = .castout w) :
    s.takeLine k = some (s.castout (setOf b) w k, []) := by
  subst visits
  simp only [State.takeLine, choice]

theorem State.takeLine_of_nothing {s : State} {k : SlotId} {b : Bucket}
    (visits : s.visitBucket k = b) (choice : (s.cacheSet (setOf b)).choose = .nothing) :
    s.takeLine k = none := by
  subst visits
  simp only [State.takeLine, choice]

/-! ## Arrivals by kind (R45, R59) -/

theorem State.arriveVisit_of_ordinary {s : State} {k : SlotId} {c : Context}
    (context : (s.slot k).context = some c) (ordinary : c.request.kind.replacesImage = false) :
    s.arriveVisit k = s.arriveOrdinary k := by
  unfold State.arriveVisit
  rw [context]
  dsimp only
  split
  case h_1 raw => rw [raw] at ordinary; cases ordinary
  case h_2 repair => rw [repair] at ordinary; cases ordinary
  case h_3 => rfl

theorem State.arriveVisit_of_rawWrite {s : State} {k : SlotId} {c : Context}
    (context : (s.slot k).context = some c) (raw : c.request.kind = .rawWrite) :
    s.arriveVisit k = s.arriveRawWrite k := by
  simp only [State.arriveVisit, context, raw]

theorem State.arriveVisit_of_repair {s : State} {k : SlotId} {c : Context}
    (context : (s.slot k).context = some c) (repair : c.request.kind = .repair) :
    s.arriveVisit k = s.arriveRepair k := by
  simp only [State.arriveVisit, context, repair]

theorem State.arriveOrdinary_of_hit {s : State} {k : SlotId} {b : Bucket} {w : Way}
    (visits : s.visitBucket k = b) (found : (s.cacheSet (setOf b)).find b = some w) :
    s.arriveOrdinary k = s.hit (setOf b) w k := by
  subst visits
  simp only [State.arriveOrdinary, found]

theorem State.arriveOrdinary_of_miss {s : State} {k : SlotId} {b : Bucket}
    (visits : s.visitBucket k = b) (missed : (s.cacheSet (setOf b)).find b = none) :
    s.arriveOrdinary k = if s.listed b then (s, [.refuse k]) else s.obtainLine k := by
  subst visits
  simp only [State.arriveOrdinary, missed]

theorem State.arriveRawWrite_of_hit {s : State} {k : SlotId} {b : Bucket} {w : Way}
    (visits : s.visitBucket k = b) (found : (s.cacheSet (setOf b)).find b = some w) :
    s.arriveRawWrite k = s.hit (setOf b) w k := by
  subst visits
  simp only [State.arriveRawWrite, found]

theorem State.arriveRawWrite_of_miss {s : State} {k : SlotId} {b : Bucket}
    (visits : s.visitBucket k = b) (missed : (s.cacheSet (setOf b)).find b = none) :
    s.arriveRawWrite k = s.obtainLine k := by
  subst visits
  simp only [State.arriveRawWrite, missed]

/-! ## The owner of the fence hold, and dispatch (R84, R85) -/

theorem SlotState.isFinished_iff (x : SlotState) :
    x.isFinished = true ↔ x = .finished ∨ x = .reporting := by
  cases x <;> simp [SlotState.isFinished]

/-- The owner of the hold is dispatched once it is HELD and every older request is finished. -/
theorem State.checkOwner_of_hold {s : State} {k : SlotId} (hold : s.rt.hold = some k) :
    s.checkOwner = (s, if (s.slot k).state = .held
      ∧ ∀ j ∈ s.olderThan k, (s.slot j).state = .finished ∨ (s.slot j).state = .reporting
      then [.dispatch k] else []) := by
  simp only [State.checkOwner, hold, Bool.and_eq_true, beq_iff_eq, List.all_eq_true,
    SlotState.isFinished_iff]
  split <;> rfl

theorem State.dispatchRequest_of_fence {s : State} {k : SlotId} {r : Request}
    (request : (s.slot k).request = some r) (fence : r.kind = .fence) :
    s.dispatchRequest k = (s, [.finish k (.bare .done)]) := by
  simp only [State.dispatchRequest, request, fence]

theorem State.dispatchRequest_of_visit {s : State} {k : SlotId} {r : Request}
    (request : (s.slot k).request = some r) (notFence : r.kind ≠ .fence)
      (notFlush : r.kind ≠ .flush) :
    s.dispatchRequest k = (s.setVisiting k r, [.arrive k]) := by
  unfold State.dispatchRequest
  rw [request]
  dsimp only
  split
  case h_1 fence => exact absurd fence notFence
  case h_2 flush => exact absurd flush notFlush
  case h_3 => rfl

/-! ## Images of RAW_WRITE and REPAIR (R5, R7) -/

theorem Image.valid_sealed (im : Image) : im.sealed.valid = true := by
  rw [Image.valid, beq_iff_eq]
  rfl

theorem Image.normalForm_slots (im : Image) (k : Fin 5) :
    im.normalForm.slots[k] = if im.occupied k then im.slots[k] else ⟨0, 0⟩ := by
  have entries : im.normalForm.slots[k] = im.normalEntry k := by
    fin_cases k <;> rfl
  rw [entries]
  rfl

theorem Image.repaired_slots (k : Fin 5) : Image.repaired.slots[k] = ⟨0, 0⟩ := by
  fin_cases k <;> rfl

theorem Image.normalForm_and_repaired (im : Image) :
    im.normalForm.valid = true ∧ im.normalForm.spill = im.spill ∧ im.normalForm.reserved = 0
      ∧ im.normalForm.occupancy = im.occupancy &&& 0x1F
      ∧ (∀ k : Fin 5, im.normalForm.slots[k] = if im.occupied k then im.slots[k] else ⟨0, 0⟩)
      ∧ Image.repaired.valid = true ∧ Image.repaired.spill = 255 ∧ Image.repaired.occupancy = 0
      ∧ Image.repaired.reserved = 0 ∧ ∀ k : Fin 5, Image.repaired.slots[k] = ⟨0, 0⟩ :=
  ⟨Image.valid_sealed _, rfl, rfl, rfl, im.normalForm_slots, Image.valid_sealed _, rfl, rfl, rfl,
    Image.repaired_slots⟩

/-! ## The image of a RAW_WRITE arrives (R86) -/

/-- The slot of a RAW_WRITE whose image has arrived, with its context (R86). -/
def Slot.loaded (x : Slot) (c : Context) : Slot :=
  { x with state := .held, transfer := .done, context := some c }

theorem State.bufferLoaded_of_live {s : State} {k : SlotId} {r : Request}
    (live : (s.slot k).discarded = false) (request : (s.slot k).request = some r) (d : Block128) :
    s.bufferLoaded k d = (s.setSlot k ((s.slot k).loaded
      { Context.fresh r s.tl.size s.tl.seed with image := some (Image.ofBits d) }), [.owner]) := by
  rw [State.bufferLoaded, if_neg (by simp [live])]
  exact congrArg (fun c => (s.setSlot k { s.slot k with
    state := .held, transfer := .done, context := c }, [Task.owner])) (by rw [request]; rfl)

/-- Settles O33: the image that arrives, the owner and its dispatch, the arrivals of RAW_WRITE and
REPAIR, and the images they write. -/
theorem loadCompletionHoldsTheImage : Obligations.LoadCompletionHoldsTheImage := by
  refine ⟨fun s tag a k j d r awaits kind live hold request other older unfinished law => ?loads,
    fun s k hold => ⟨fun held finished => ?dispatched, fun waits => ?waiting⟩,
    fun s k r request => ⟨fun fence => State.dispatchRequest_of_fence request fence,
      fun notFence notFlush => ?visits⟩,
    fun s k c context => ⟨fun repair unlisted => ?unlisted, fun raw w found unclaimed => ?hit,
      fun kind unclaimed alone => ?obtains, fun w im whole choice => ?takes⟩,
    fun im => im.normalForm_and_repaired⟩
  case loads =>
    have loads := State.bufferLoaded_of_live (s := s.endAccess tag) live request d
    have treats := State.Treats.of_setSlot s tag k ((s.slot k).loaded
      { Context.fresh r s.tl.size s.tl.seed with image := some (Image.ofBits d) })
    have event := exec_loadCompletion awaits kind d
    rw [loads] at event
    have stands : (s.endAccess tag).slot k = s.slot k := rfl
    have closes : ((s.endAccess tag).setSlot k ((s.slot k).loaded
        { Context.fresh r s.tl.size s.tl.seed
        with image := some (Image.ofBits d) })).closeEvent = _ :=
          State.closeEvent_of_ec law rfl rfl rfl
    rw [stands, State.endAccess_tl] at event
    generalize (s.endAccess tag).setSlot k ((s.slot k).loaded { Context.fresh r s.tl.size s.tl.seed
        with image := some (Image.ofBits d) }) = u at event treats closes
    have unowned : u.checkOwner = (u, []) := by
      refine (State.checkOwner_of_hold (treats.hold.trans hold)).trans (congrArg _ (if_neg ?_))
      rintro ⟨-, finished⟩
      have older' : j ∈ u.olderThan k := by rwa [State.olderThan, treats.age]
      have finished' := finished j older'
      rw [treats.onlySlot j other, ← SlotState.isFinished_iff, unfinished] at finished'
      cases finished'
    refine ⟨u, event.trans ?_, congrArg Slot.state treats.slot,
      (congrArg Slot.request treats.slot).trans request, ⟨_, congrArg Slot.context treats.slot, rfl,
        rfl, rfl, rfl, rfl⟩, treats.onlySlot, treats.hold.trans hold, treats.cu, treats.tl,
        treats.bc,
      treats.mc, treats.ec, treats.ends, treats.window⟩
    simp only [settle, cascadeBound_eq, runTasks_cons, runTask, unowned, List.append_nil,
      runTasks_nil,
      Option.map_some, closes]
    rfl
  case dispatched =>
    exact (State.checkOwner_of_hold hold).trans (congrArg _ (if_pos ⟨held, finished⟩))
  case waiting =>
    refine (State.checkOwner_of_hold hold).trans (congrArg _ (if_neg ?_))
    rintro ⟨held, finished⟩
    rcases waits with notHeld | ⟨j, mem, unfinished⟩
    · exact notHeld held
    · exact unfinished (finished j mem)
  case visits => exact State.dispatchRequest_of_visit request notFence notFlush
  case unlisted =>
    refine (State.arriveVisit_of_repair context repair).trans ?_
    rw [State.arriveRepair, State.visitBucket_of_context context, unlisted]
    rfl
  case hit =>
    exact (State.arriveVisit_of_rawWrite context raw).trans
      ((State.arriveRawWrite_of_hit (State.visitBucket_of_context context) found).trans
        (State.hit_of_unclaimed unclaimed k))
  case obtains =>
    have visits := State.visitBucket_of_context context
    have first := State.obtainLine_of_first visits unclaimed alone
    rw [State.behind, alone, List.nil_append] at first
    refine Eq.trans ?_ first
    rcases kind with ⟨repair, listed⟩ | ⟨raw, missed⟩
    · refine (State.arriveVisit_of_repair context repair).trans ?_
      rw [State.arriveRepair, visits, listed]
      rfl
    · exact (State.arriveVisit_of_rawWrite context raw).trans
        (State.arriveRawWrite_of_miss visits missed)
  case takes =>
    obtain ⟨t, tasks, given, takes⟩ := State.takesWhole_allocate context whole (setOf c.bucket) w
    exact ⟨t, tasks, (State.takeLine_of_allocate (State.visitBucket_of_context context)
      choice).trans
      (congrArg some given), takes⟩

end Sys2Proof.Machine
end


section
/-! What a set chooses and how its wait list is served (R45, R49 to R52, R55, R56, R58), and a keyed
record that visits its primary bucket (R19, R81, R84). -/

namespace Sys2Proof.Machine

/-! ## The choice of a set (R49, R50) -/

theorem find_of_first {α : Type} {p : α → Bool} {l pre post : List α} {x : α}
    (split : l = pre ++ x :: post) (here : p x = true) (before : ∀ y ∈ pre, p y = false) :
    l.find? p = some x :=
  List.find?_eq_some_iff_append.mpr ⟨here, pre, post, split, by simpa using before⟩

/-- The ways stand in order. -/
theorem allWays_split (w : Way) : allWays = allWays.take w ++ w :: allWays.drop (w + 1)
    ∧ ∀ v ∈ allWays.take w, v < w := by
  revert w
  decide

theorem find_allWays {p : Way → Bool} {w : Way} (here : p w = true)
    (before : ∀ v < w, p v = false) : allWays.find? p = some w :=
  find_of_first (allWays_split w).1 here fun v mem => before v ((allWays_split w).2 v mem)

/-- A line that can be given away in this state (R50). -/
def Line.usable (l : Line) (x : LineState) : Prop :=
  l.state = x ∧ l.waiters = [] ∧ l.current = [] ∧ l.next = [] ∧ l.claim = none

theorem Line.usable_iff (l : Line) (x : LineState) :
    (l.state == x && l.eligible) = true ↔ l.usable x := by
  simp [Line.eligible, Line.usable, and_assoc]

theorem Line.not_usable_iff (l : Line) (x : LineState) :
    (l.state == x && l.eligible) = false ↔ ¬l.usable x := by
  rw [← Bool.not_eq_true, Line.usable_iff]

/-- The first FREE line (R49). -/
theorem CacheSet.choose_of_free {c : CacheSet} {w : Way} (free : c.lines[w].state = .free)
    (before : ∀ v < w, c.lines[v].state ≠ .free) : c.choose = .allocate w := by
  have found : allWays.find? (fun w => c.lines[w].state == .free) = some w :=
    find_allWays (beq_iff_eq.mpr free) fun v less => beq_eq_false_iff_ne.mpr (before v less)
  simp only [CacheSet.choose, found]

theorem CacheSet.noFree {c : CacheSet} (full : ∀ w : Way, c.lines[w].state ≠ .free) :
    allWays.find? (fun w => c.lines[w].state == .free) = none := by
  rw [List.find?_eq_none]
  exact fun v _ => by simpa using full v

/-- With no FREE line, the least recent CLEAN line that is usable (R49). -/
theorem CacheSet.choose_of_clean {c : CacheSet} {pre post : List Way} {w : Way}
    (full : ∀ w : Way, c.lines[w].state ≠ .free) (order : c.order = pre ++ w :: post)
    (usable : c.lines[w].usable .clean) (before : ∀ v ∈ pre, ¬c.lines[v].usable .clean) :
    c.choose = .allocate w := by
  have found : c.order.find? (fun w => c.lines[w].state == .clean && c.lines[w].eligible) =
      some w :=
    find_of_first order ((Line.usable_iff _ _).mpr usable) fun v mem =>
      (Line.not_usable_iff _ _).mpr (before v mem)
  simp only [CacheSet.choose, CacheSet.noFree full, found]

/-- With no FREE line and no usable CLEAN line, a castout or nothing (R49). -/
theorem CacheSet.choose_of_noClean {c : CacheSet} (full : ∀ w : Way, c.lines[w].state ≠ .free)
    (noClean : ∀ v ∈ c.order, ¬c.lines[v].usable .clean) : c.choose =
      if c.claimed.isSome then .nothing
      else (c.order.find? fun w => c.lines[w].state == .dirty && c.lines[w].eligible).elim
        .nothing .castout := by
  have missed : c.order.find? (fun w => c.lines[w].state == .clean && c.lines[w].eligible) =
      none := by
    rw [List.find?_eq_none]
    exact fun v mem => by rw [Line.usable_iff]; exact noClean v mem
  simp only [CacheSet.choose, CacheSet.noFree full, missed]
  cases c.order.find? fun w => c.lines[w].state == .dirty && c.lines[w].eligible <;> rfl

theorem CacheSet.claimed_isSome_iff (c : CacheSet) :
    c.claimed.isSome = true ↔ ∃ w : Way, c.lines[w].claim ≠ none := by
  rw [← Option.isNone_eq_false_iff, ← Bool.not_eq_true, Option.isNone_iff_eq_none,
    c.claimed_eq_none_iff, not_forall]

theorem CacheSet.choose_rules (c : CacheSet) :
    (∀ w : Way, c.lines[w].state = .free → (∀ v < w, ¬c.lines[v].state = .free) →
      c.choose = .allocate w)
    ∧ ((∀ w : Way, ¬c.lines[w].state = .free) →
      (∀ pre w post, c.order = pre ++ w :: post → c.lines[w].usable .clean →
        (∀ v ∈ pre, ¬c.lines[v].usable .clean) → c.choose = .allocate w)
      ∧ ((∀ v ∈ c.order, ¬c.lines[v].usable .clean) →
        ((∃ w : Way, c.lines[w].claim ≠ none) → c.choose = .nothing)
        ∧ ((∀ v ∈ c.order, ¬c.lines[v].usable .dirty) → c.choose = .nothing)
        ∧ ∀ pre w post, (∀ v : Way, c.lines[v].claim = none) → c.order = pre ++ w :: post →
          c.lines[w].usable .dirty → (∀ v ∈ pre, ¬c.lines[v].usable .dirty) →
          c.choose = .castout w)) := by
  refine ⟨fun w => CacheSet.choose_of_free, fun full =>
    ⟨fun pre w post => CacheSet.choose_of_clean full,
    fun noClean => ⟨fun claimed => ?_, fun noDirty => ?_, fun pre w post unclaimed order usable
      before => ?_⟩⟩⟩
  all_goals rw [CacheSet.choose_of_noClean full noClean]
  · exact if_pos (c.claimed_isSome_iff.mpr claimed)
  · have missed : c.order.find? (fun w => c.lines[w].state == .dirty && c.lines[w].eligible)
        = none := by
      rw [List.find?_eq_none]
      exact fun v mem => by rw [Line.usable_iff]; exact noDirty v mem
    rw [missed]
    split <;> rfl
  · have found : c.order.find? (fun w => c.lines[w].state == .dirty && c.lines[w].eligible)
        = some w :=
      find_of_first order ((Line.usable_iff _ _).mpr usable) fun v mem =>
        (Line.not_usable_iff _ _).mpr (before v mem)
    rw [if_neg (by rw [c.claimed_eq_none_iff.mpr unclaimed]; simp), found]
    rfl

/-- The line tagged with a bucket (R45). -/
theorem CacheSet.find_rules (c : CacheSet) (b : Bucket) :
    (∀ w, c.find b = some w → c.lines[w].tag = some b)
      ∧ (c.find b = none ↔ ∀ w : Way, c.lines[w].tag ≠ some b) := by
  constructor
  · intro w found
    simpa using List.find?_some found
  · simp [CacheSet.find, List.find?_eq_none, mem_allWays]

/-! ## A line taken (R51, R52) -/

theorem State.allocate_of_fill {s : State} {k : SlotId} (fills : s.needsNoFill k = false)
    (i : SetId)
    (w : Way) : s.allocate i w k = (s.allocateFill i w k (s.visitBucket k), []) :=
  if_neg (by simp [fills])

/-- One castout more (R77). -/
def Counters.castout (c : Counters) : Counters := { c with castouts := c.castouts + 1 }

theorem State.handsLine_castout (s : State) (i : SetId) (w : Way) (k : SlotId) :
    s.HandsLine (s.castout i w k) i w { s.line i w with state := .writing, claim := some k }
      .castout :=
  State.HandsLine.of_count s i w { s.line i w with state := .writing, claim := some k } .castout

/-! ## A wait list is served from its head (R55, R56) -/

theorem State.retrySet_of_claimed {s : State} {i : SetId} {k : SlotId} {rest : List SlotId}
    (waiting : (s.cacheSet i).waiting = k :: rest)
      (claimed : s.claimedFor i (s.visitBucket k) = true) :
    s.retrySet i = (s, []) := by
  simp only [State.retrySet, waiting, claimed, if_true]

theorem State.retrySet_of_refused {s : State} {i : SetId} {k : SlotId} {rest : List SlotId}
    (waiting : (s.cacheSet i).waiting = k :: rest)
      (unclaimed : s.claimedFor i (s.visitBucket k) = false)
    (fills : s.needsNoFill k = false) (listed : s.listed (s.visitBucket k) = true) :
    s.retrySet i = (s.setWaiting i rest, [.refuse k, .retry i]) := by
  simp [State.retrySet, waiting, unclaimed, fills, listed]

theorem State.retrySet_of_served {s : State} {i : SetId} {k : SlotId} {rest : List SlotId}
    (waiting : (s.cacheSet i).waiting = k :: rest)
      (unclaimed : s.claimedFor i (s.visitBucket k) = false)
    (served : s.needsNoFill k = true ∨ s.listed (s.visitBucket k) = false) :
    s.retrySet i = ((s.setWaiting i rest).takeLine k).elim (s, []) fun p =>
      (p.1, p.2 ++ [.retry i]) := by
  have go : ¬(!s.needsNoFill k && s.listed (s.visitBucket k)) = true := by
    rcases served with h | h <;> simp [h]
  simp only [State.retrySet, waiting, unclaimed, go, Bool.false_eq_true, if_false]
  cases (s.setWaiting i rest).takeLine k <;> rfl

/-! ## A keyed record visits its primary bucket (R19, R81, R84) -/

/-- The context of a keyed request at its dispatch (R19). -/
def Context.keyed (r : Request) (size : Nat) (seed : BitVec 64) : Context :=
  ⟨r, some (primaryBucket size seed r.key), some (alternateBucket size seed r.key), .one,
    false, none,
    none⟩

theorem Context.fresh_of_keyed {r : Request} (keyed : r.kind.keyed = true) (size : Nat)
    (seed : BitVec 64) : Context.fresh r size seed = .keyed r size seed := by
  simp [Context.fresh, Context.keyed, keyed]

/-- The slot of a keyed request that has arrived and is dispatched (R81, R84). -/
def Slot.visiting (x : Slot) (d : Block64) (r : Request) (c : Context) : Slot :=
  { x with record := some d, considered := true, request := some r, state := .visiting,
           context := some c }

/-- The state in which that request visits. -/
def State.visits (s : State) (tag : Nat) (k : SlotId) (d : Block64) (r : Request) : State :=
  (s.endAccess tag).setSlot k ((s.slot k).visiting d r (.keyed r s.tl.size s.tl.seed))

theorem State.slot_visits (s : State) (tag : Nat) (k : SlotId) (d : Block64) (r : Request) :
    (s.visits tag k d r).slot k = (s.slot k).visiting d r (.keyed r s.tl.size s.tl.seed) :=
  State.slot_setSlot_self _ k _

theorem State.visitBucket_visits (s : State) (tag : Nat) (k : SlotId) (d : Block64) (r : Request) :
    (s.visits tag k d r).visitBucket k = primaryBucket s.tl.size s.tl.seed r.key :=
  State.visitBucket_of_context (congrArg Slot.context (s.slot_visits tag k d r))

theorem State.treats_visits (s : State) (tag : Nat) (k : SlotId) (d : Block64) (r : Request) :
    s.Treats (s.visits tag k d r) tag k
      ((s.slot k).visiting d r (.keyed r s.tl.size s.tl.seed)) :=
  State.Treats.of_setSlot s tag k _

/-- What the event leaves of a slot that was treated, where the cache and the controller act after
that. -/
theorem State.Treats.close_of_rt {s v u : State} {tag : Nat} {k : SlotId} {x : Slot}
    (h : s.Treats v tag k x) (rt : u.rt = v.rt) (bi : u.bi = v.bi) (cu : u.cu = v.cu)
    (tl : u.tl = v.tl) (pending : u.pending = v.pending) (mask : u.ec.intMask = v.ec.intMask) :
    u.closeEvent.slot k = x ∧ s.onlySlot u.closeEvent k ∧ u.closeEvent.cu = s.cu
      ∧ u.closeEvent.tl = s.tl ∧ s.endsAccess tag u.closeEvent ∧ s.sameWindow u.closeEvent := by
  have slots : ∀ j, u.closeEvent.slot j = v.slot j :=
    State.slot_of_rt ((State.closeEvent_rt u).trans rt)
  have ends : s.endsAccess tag u := by
    have ends := h.ends
    rwa [State.endsAccess, ← bi] at ends
  refine ⟨(slots k).trans h.slot, fun j other => (slots j).trans (h.onlySlot j other), ?_, ?_,
    ends.close, State.sameWindow.close (h.window.trans ?_)⟩
  · rw [State.closeEvent_cu, cu, h.cu]
  · rw [State.closeEvent_tl, tl, h.tl]
  · exact ⟨by rw [bi], by rw [bi], mask, pending⟩

/-- Claims are for the buckets of requests other than `k` (R49, R56). -/
theorem State.claimedFor_of_onlySlot {s t : State} {k : SlotId} (sets : t.bc.sets = s.bc.sets)
    (slots : s.onlySlot t k) {i : SetId} (other : ∀ v : Way, (s.line i v).claim ≠ some k)
    (b : Bucket) :
    t.claimedFor i b = s.claimedFor i b := by
  unfold State.claimedFor
  rw [State.cacheSet_of_sets sets]
  cases (s.cacheSet i).claimed with
  | none => rfl
  | some w =>
    dsimp only
    rw [State.line_of_bc sets]
    cases claim : (s.line i w).claim with
    | none => rfl
    | some j =>
      have apart : j ≠ k := fun here => other w (claim.trans (congrArg some here))
      dsimp only
      rw [State.visitBucket, State.visitBucket, slots j apart]

/-- The event of such a record, up to its arrival at the cache. -/
theorem exec_recordArrival_of_keyed {s u : State} {tag : Nat} {a : BusAccess} {k : SlotId}
    {d : Block64} {r : Request} (awaits : s.awaits tag a) (kind : a.kind = .recordRead k)
    (live : (s.slot k).discarded = false) (point : s.considerationPoint = some k)
    (fresh : (s.slot k).context = none) (hold : s.rt.hold = none)
    (good : decodeRecord s.tl.size d = some r) (keyed : r.kind.keyed = true)
    (free : s.keyHeld k r.key = false)
    (behind : ∀ j : SlotId, j ≠ k → (s.slot j).record = none ∨ (s.slot j).considered = true)
    (arrives : (s.visits tag k d r).arriveOrdinary k = (u, []))
    (slot : u.slot k = (s.slot k).visiting d r (.keyed r s.tl.size s.tl.seed))
    (slots : s.onlySlot u k) : exec (.recordArrival tag d) s = .next u.closeEvent := by
  have atPoint := State.slot_setSlot_self (s.endAccess tag) k ((s.slot k).atPoint d)
  have treated := (State.treat_of_good
    (s := (s.endAccess tag).setSlot k ((s.slot k).atPoint d)) hold good k).trans
    (State.letIn_of_free keyed ((State.keyHeld_of_onlySlot (s := s)
      (t := (s.endAccess tag).setSlot k ((s.slot k).atPoint d)) rfl
      (State.Treats.of_setSlot s tag k _).onlySlot r.key).trans free))
  rw [atPoint, State.setSlot_setSlot] at treated
  have event := exec_recordArrival_of_point awaits kind live point treated
  have requested := State.slot_setSlot_self (s.endAccess tag) k
    { (s.slot k).atPoint d with request := some r }
  have dispatched : ((s.endAccess tag).setSlot k
      { (s.slot k).atPoint d with request := some r }).dispatchRequest k
        = (s.visits tag k d r, [.arrive k]) := by
    refine (State.dispatchRequest_of_visit (congrArg Slot.request requested)
      (fun fence => by rw [fence] at keyed; cases keyed)
      (fun flush => by rw [flush] at keyed; cases keyed)).trans ?_
    rw [State.setVisiting, State.modifySlot, requested, State.setSlot_setSlot]
    refine congrArg (fun c => ((s.endAccess tag).setSlot k ((s.slot k).visiting d r c),
      [Task.arrive k])) ?_
    exact (congrArg (Option.getD · _) fresh).trans (Context.fresh_of_keyed keyed _ _)
  have visiting := s.slot_visits tag k d r
  have ordinary : r.kind.replacesImage = false := Kind.replacesImage_of_keyed keyed
  have arrived := (State.arriveVisit_of_ordinary (congrArg Slot.context visiting) ordinary).trans
      arrives
  have rests : u.considerNext = (u, []) :=
    State.considerNext_of_onlySlot slots (by rw [slot]; rfl) behind
  rw [event]
  generalize (s.endAccess tag).setSlot k { (s.slot k).atPoint d with request := some r } =
    v at dispatched
  simp only [runTasks_cons, runTask, dispatched, arrived, rests, List.append_nil, List.cons_append,
    List.nil_append, runTasks_nil]
  rfl

/-- Settles O27: the record that visits its primary bucket, the other arrivals, and the set's
choice, its wait list and its search. -/
theorem keyedRecordVisitsItsPrimary : Obligations.KeyedRecordVisitsItsPrimary := by
  refine ⟨fun s tag a k d r w awaits kind live point fresh hold good keyed free behind =>
      ⟨fun found unclaimed => ?hit, fun missed unlisted alone unclaimed other choice => ?fill⟩,
    fun s k c context ordinary => ⟨fun w found => ?joins, fun missed listed => ?refused,
      fun missed unlisted ahead => ?behind, fun missed unlisted unclaimed alone => ?first⟩,
    fun s k fills => ⟨State.takeLine_of_nothing rfl, fun w choice => ?allocate,
      fun w choice => ?castout⟩,
    fun s k => rfl,
    fun s i => ⟨State.retrySet_of_empty, fun k rest waiting => ⟨State.retrySet_of_claimed waiting,
      State.retrySet_of_refused waiting, fun unclaimed served => ?served⟩⟩,
    CacheSet.find_rules, CacheSet.choose_rules⟩
  case hit =>
    have treats := s.treats_visits tag k d r
    have arrives := (State.arriveOrdinary_of_hit (s := s.visits tag k d r)
      (s.visitBucket_visits tag k d r) found).trans (State.hit_of_unclaimed
      (s := s.visits tag k d r)
        unclaimed k)
    have event := exec_recordArrival_of_keyed awaits kind live point fresh hold good keyed free
        behind
      arrives (s.slot_visits tag k d r) treats.onlySlot
    generalize s.visits tag k d r = v at event treats
    generalize setOf (primaryBucket s.tl.size s.tl.seed r.key) = i at *
    have stands : v.line i w = s.line i w := State.line_of_bc
        (congrArg BucketCache.sets treats.bc) i w
    rw [stands] at event
    obtain ⟨slot, slots, cu, tl, ends, window⟩ := treats.close_of_rt (u := v.setLine i w
      { s.line i w with waiters := (s.line i w).waiters ++ [k] }) rfl rfl rfl rfl rfl rfl
    have sets := congrArg BucketCache.sets (State.closeEvent_bc (v.setLine i w
      { s.line i w with waiters := (s.line i w).waiters ++ [k] }))
    refine ⟨_, event, slot, slots, (State.line_of_bc sets i w).trans
      (State.line_setLine_self v i w _),
      ?_, (State.closeEvent_mc _).trans treats.mc, ?_, cu, tl, ends, window⟩
    · exact ((State.onlyLine_of_sets (congrArg BucketCache.sets treats.bc) i w).trans
        (State.onlyLine_setLine v i w _)).trans (State.onlyLine_of_sets sets i w)
    · apply EngineControl.ext <;> simp [treats.ec]
  case fill =>
    have treats := s.treats_visits tag k d r
    have visits := s.visitBucket_visits tag k d r
    have ordinary : r.kind.replacesImage = false := Kind.replacesImage_of_keyed keyed
    have fills : (s.visits tag k d r).needsNoFill k = false :=
      (State.needsNoFill_of_context (congrArg Slot.context (s.slot_visits tag k d r))).trans
      ordinary
    have unclaimed' : (s.visits tag k d r).claimedFor
        (setOf (primaryBucket s.tl.size s.tl.seed r.key))
        (primaryBucket s.tl.size s.tl.seed r.key) = false :=
      (State.claimedFor_of_onlySlot (congrArg BucketCache.sets treats.bc)
        treats.onlySlot other _).trans
        unclaimed
    have alone' : ((s.visits tag k d r).cacheSet (setOf (primaryBucket s.tl.size s.tl.seed
      r.key))).waiting = [] := alone
    have arrives := State.arriveOrdinary_of_miss (s := s.visits tag k d r) visits missed
    have unlisted' : ¬(s.visits tag k d r).listed (primaryBucket s.tl.size s.tl.seed r.key) =
        true := by
      change ¬s.listed _ = true
      simp [unlisted]
    rw [if_neg unlisted', State.obtainLine_of_first visits unclaimed' alone,
      State.takeLine_of_allocate (s := s.visits tag k d r) visits choice,
      State.allocate_of_fill fills, visits, Option.getD_some] at arrives
    have given := (s.visits tag k d r).fillsFor_allocateFill
      (setOf (primaryBucket s.tl.size s.tl.seed r.key))
        w k (primaryBucket s.tl.size s.tl.seed r.key)
    have event := exec_recordArrival_of_keyed awaits kind live point fresh hold good keyed free
        behind
      arrives ((State.slot_of_rt given.rt k).trans (s.slot_visits tag k d r))
      (treats.onlySlot.trans (State.onlySlot_of_rt given.rt k))
    generalize (s.visits tag k d r).allocateFill (setOf
      (primaryBucket s.tl.size s.tl.seed r.key)) w k
      (primaryBucket s.tl.size s.tl.seed r.key) = u at event given
    generalize s.visits tag k d r = v at given treats alone'
    have mask : u.ec.intMask = v.ec.intMask := by rw [given.ec]
    obtain ⟨slot, slots, cu, tl, ends, window⟩ := treats.close_of_rt given.rt given.bi given.cu
      given.tl given.pending mask
    have sets := congrArg BucketCache.sets (State.closeEvent_bc u)
    have order : (v.cacheSet (setOf (primaryBucket s.tl.size s.tl.seed r.key))).order
        = (s.cacheSet (setOf (primaryBucket s.tl.size s.tl.seed r.key))).order := by
      rw [State.cacheSet_of_sets (congrArg BucketCache.sets treats.bc)]
    have line := given.line
    rw [alone'] at line
    refine ⟨_, event, slot, slots, (State.line_of_bc sets _ w).trans line, ?_, ?_, ?_, ?_, cu,
      tl, ends,
      window⟩
    · exact ((State.onlyLine_of_sets (congrArg BucketCache.sets treats.bc) _ w).trans
        given.onlyLine).trans (State.onlyLine_of_sets sets _ w)
    · rw [State.cacheSet_of_sets sets, given.order, order]
    · rcases State.handsOver_of_mc given.handsOver (State.closeEvent_mc u) with waits |
        ⟨x, mem, body, -⟩
      · exact .inr waits
      · exact .inl ⟨x, mem, body⟩
    · apply EngineControl.ext <;> simp [given.ec, treats.ec]
  case joins =>
    exact (State.arriveVisit_of_ordinary context ordinary).trans
      ((State.arriveOrdinary_of_hit (State.visitBucket_of_context context) found).trans
        (s.hit_eq _ w k))
  case refused =>
    refine (State.arriveVisit_of_ordinary context ordinary).trans
      ((State.arriveOrdinary_of_miss (State.visitBucket_of_context context) missed).trans ?_)
    exact if_pos listed
  case behind =>
    refine (State.arriveVisit_of_ordinary context ordinary).trans
      ((State.arriveOrdinary_of_miss (State.visitBucket_of_context context) missed).trans ?_)
    rw [if_neg (by simp [unlisted])]
    exact State.obtainLine_of_behind (State.visitBucket_of_context context) ahead
  case first =>
    refine (State.arriveVisit_of_ordinary context ordinary).trans
      ((State.arriveOrdinary_of_miss (State.visitBucket_of_context context) missed).trans ?_)
    rw [if_neg (by simp [unlisted])]
    exact State.obtainLine_of_first (State.visitBucket_of_context context) unclaimed alone
  case allocate =>
    have given := s.fillsFor_allocateFill (setOf (s.visitBucket k)) w k (s.visitBucket k)
    exact ⟨_, (State.takeLine_of_allocate rfl choice).trans
      (congrArg some (State.allocate_of_fill fills _ w)), given.line, given.waiting, given.order,
      given.onlyLine, given.handsOver, given.rt, given.poison,
      congrArg EngineControl.counters given.ec⟩
  case castout =>
    have writes := s.handsLine_castout (setOf (s.visitBucket k)) w k
    exact ⟨_, State.takeLine_of_castout rfl choice, writes.line, writes.onlyLine, writes.waiting,
      writes.handsOver, writes.rt, writes.poison, congrArg EngineControl.counters writes.ec⟩
  case served =>
    refine (State.retrySet_of_served waiting unclaimed served).trans ?_
    change Option.elim ((s.setWaiting i rest).takeLine k) _ _ =
      match (s.setWaiting i rest).takeLine k with
      | some p => _
      | none => _
    cases (s.setWaiting i rest).takeLine k <;> rfl

end Sys2Proof.Machine
end


section
/-! Finishing a request (R84, R85), the store of a RAW_READ (R87), and the flush sweep (R74, R75).
-/

namespace Sys2Proof.Machine

/-! ## The end of a request (R84, R85) -/

theorem State.slot_clearHold (s : State) (j : SlotId) : s.clearHold.slot j =
    if (s.slot j).state = .held then { s.slot j with considered := false } else s.slot j := by
  simp only [State.slot, State.clearHold, Fin.getElem_fin, Vector.getElem_map, beq_iff_eq]
  rfl

/-- The end of the request that owns the hold, in RUNNING (R85). -/
theorem State.finishRequest_of_owner {s : State} (running : s.ec.engine = .running) {k : SlotId}
    (hold : s.rt.hold = some k) (r : Result) :
    s.finishRequest k r = ((s.answered k r).clearHold, [.consider]) := by
  simp [State.finishRequest, State.finishSlot_of_running running, hold]

/-- The end of another request, in RUNNING: the key guard releases the oldest that waits (R84). -/
theorem State.finishRequest_of_other {s : State} (running : s.ec.engine = .running) {k : SlotId}
    (hold : s.rt.hold ≠ some k) (r : Result) : s.finishRequest k r =
      (s.answered k r, (s.answered k r).releaseKey (s.slot k).guardKey ++ [.owner]) := by
  simp [State.finishRequest, State.finishSlot_of_running running, hold]

theorem State.oldestWaiting_of_first {s : State} {key : Key} {pre post : List SlotId} {j : SlotId}
    (age : s.rt.age = pre ++ j :: post) (waits : (s.slot j).state = .waitingKey)
    (guards : (s.slot j).guardKey = some key)
    (before : ∀ x ∈ pre, (s.slot x).state = .waitingKey → (s.slot x).guardKey ≠ some key) :
    s.oldestWaiting key = some j :=
  find_of_first age (by simp [waits, guards]) fun x mem => by
    simpa using before x mem

/-- The slot of the owner after the end of its request, and the others. -/
theorem State.slot_answered_clearHold (s : State) (k : SlotId) (r : Result) :
    (s.answered k r).clearHold.slot k = (s.slot k).reports r := by
  rw [State.slot_clearHold, State.slot_answered_self]
  rfl

theorem State.slot_answered_clearHold_of_ne (s : State) {j k : SlotId} (other : j ≠ k)
    (r : Result) :
    (s.answered k r).clearHold.slot j =
      if (s.slot j).state = .held then { s.slot j with considered := false } else s.slot j := by
  rw [State.slot_clearHold, s.onlySlot_answered k r j other]

theorem State.frame_answered_clearHold (s : State) (k : SlotId) (r : Result) :
    (s.answered k r).clearHold.rt.hold = none ∧ (s.answered k r).clearHold.cu = s.cu
      ∧ (s.answered k r).clearHold.tl = s.tl ∧ (s.answered k r).clearHold.bc = s.bc
      ∧ (s.answered k r).clearHold.mc = s.mc ∧ s.sameWindow (s.answered k r).clearHold :=
  ⟨rfl, rfl, rfl, rfl, rfl, rfl, rfl, rfl, rfl⟩

theorem State.slot_setVisiting (s : State) (k : SlotId) (r : Request) :
    (s.setVisiting k r).slot k = { s.slot k with
      state := .visiting
      context := some ((s.slot k).context.getD (.fresh r s.tl.size s.tl.seed)) } :=
  State.slot_modifySlot_self s k _

theorem State.onlySlot_setVisiting (s : State) (k : SlotId) (r : Request) :
    s.onlySlot (s.setVisiting k r) k :=
  fun _ other => State.slot_modifySlot_of_ne s _ other

/-! ## The store of a RAW_READ (R87) -/

theorem exec_storeCompletion {s : State} {tag : Nat} {a : BusAccess} {k : SlotId}
    (awaits : s.awaits tag a) (kind : a.kind = .bufferWrite k) :
    exec (.storeCompletion tag) s
      = outcomeOf (settle (s.endAccess tag, [.finish k (.bare .done)])) := by
  change outcomeOf (settle (s.onEndTasks tag AccessKind.isBufferWrite fun a t =>
    t.storeEnds a.kind)) = _
  rw [State.onEndTasks_of_awaits awaits (by rw [kind]; rfl), kind]
  rfl

theorem State.startStore_of_context {s : State} {k : SlotId} {q : Request} {c : Context}
    {im : Image}
    (live : s.abandoning = false) (request : (s.slot k).request = some q)
    (context : (s.slot k).context = some c) (image : c.image = some im) : s.startStore k =
      if s.mayIssue then
        (s.setSlot k { s.slot k with state := .storing, transfer := .outstanding }).issueWrite
          (.bufferWrite k) q.operand im.bytes
      else s.setSlot k { s.slot k with state := .storing, transfer := .waiting } := by
  simp [State.startStore, live, request, context, image]

theorem Image.bytes_length (im : Image) : im.bytes.length = 128 := by
  simp [Image.bytes, Image.slotBytes, Entry.bytes]

/-- From `s` to `x` the store of request `k` has begun: its write is issued, or waits (R87). -/
structure State.Stores (s x : State) (k : SlotId) (q : Request) (im : Image) : Prop where
  slot : x.slot k = { s.slot k with
    state := .storing, transfer := if s.mayIssue then .outstanding else .waiting }
  onlySlot : s.onlySlot x k
  keeps : s.keepsAccesses x
  adds : s.addsOnly x (· == .bufferWrite k)
  issued : s.mayIssue = true → x.hasIssued (.bufferWrite k) q.operand 128 im.bytes
  hold : x.rt.hold = s.rt.hold
  bc : x.bc = s.bc
  mc : x.mc = s.mc
  cu : x.cu = s.cu
  tl : x.tl = s.tl
  window : s.sameWindow x

theorem State.stores_startStore {s : State} {k : SlotId} {q : Request} {c : Context} {im : Image}
    (live : s.abandoning = false) (request : (s.slot k).request = some q)
    (context : (s.slot k).context = some c) (image : c.image = some im) :
    s.Stores (s.startStore k) k q im := by
  rw [State.startStore_of_context live request context image]
  by_cases may : s.mayIssue = true
  · have adds := State.issueWrite_accesses
      (s.setSlot k { s.slot k with state := .storing, transfer := .outstanding })
      (.bufferWrite k) q.operand im.bytes
    rw [if_pos may]
    exact {
      slot := by rw [if_pos may]; exact State.slot_setSlot_self s k _
      onlySlot := State.onlySlot_setSlot s k _
      keeps := State.keepsAccesses_append adds
      adds := State.addsOnly_append adds (by simp)
      issued := fun _ => State.hasIssued_issueWrite_of_length _ _ _ im.bytes_length
      hold := rfl, bc := rfl, mc := rfl, cu := rfl, tl := rfl
      window := ⟨rfl, rfl, rfl, rfl⟩ }
  · rw [if_neg may]
    exact {
      slot := by rw [if_neg may]; exact State.slot_setSlot_self s k _
      onlySlot := State.onlySlot_setSlot s k _
      keeps := State.keepsAccesses_of_eq rfl
      adds := State.addsOnly_of_eq rfl
      issued := fun h => absurd h may
      hold := rfl, bc := rfl, mc := rfl, cu := rfl, tl := rfl
      window := ⟨rfl, rfl, rfl, rfl⟩ }

theorem State.applyStep_store {s : State} {i : SetId} {w : Way} {k : SlotId} {kind : Kind}
    {out : StepResult} (ends : out.ending = .store) :
    s.applyStep i w k kind out = (s.startStore k, []) := by
  simp [State.applyStep, ends]

theorem tableStep_of_rawRead {c : Context} (raw : c.request.kind = .rawRead) (im : Image) :
    tableStep c im = ⟨im, false, { c with image := some im }, .store⟩ := by
  simp only [tableStep, raw]
  rfl

/-! ## The flush sweep (R74, R75) -/

theorem mem_allLines (i : SetId) (w : Way) : (i, w) ∈ allLines := by
  simp [allLines, allSets, mem_allWays]

/-- From `s` to `t` these lines have been taken by the sweep: each that was DIRTY is WRITING, with
its write handed over (R74). -/
structure State.Flushed (s t : State) (done : List (SetId × Way)) : Prop where
  line : ∀ (i : SetId) (w : Way), t.line i w =
    if (i, w) ∈ done ∧ (s.line i w).state = .dirty then { s.line i w with state := .writing }
    else s.line i w
  hands : ∀ (i : SetId) (w : Way), (i, w) ∈ done → (s.line i w).state = .dirty →
    t.handsOver ⟨.bucket ((s.line i w).tag.getD 0), .write (s.line i w).image, .line i w⟩
  flush : t.bc.flush = s.bc.flush
  rt : t.rt = s.rt
  ec : t.ec = s.ec
  bi : t.bi = s.bi
  cu : t.cu = s.cu

theorem State.flushed_refl (s : State) : s.Flushed s [] where
  line i w := by simp
  hands i w mem := by cases mem
  flush := rfl
  rt := rfl
  ec := rfl
  bi := rfl
  cu := rfl

theorem State.flushLine_of_dirty {s : State} {i : SetId} {w : Way}
    (dirty : (s.line i w).state = .dirty) : s.flushLine i w =
      ((s.setLine i w { s.line i w with state := .writing }).count id).handLineWrite i w := by
  rw [State.flushLine, if_pos (by simp [dirty])]
  rfl

theorem State.flushLine_of_other {s : State} {i : SetId} {w : Way}
    (other : (s.line i w).state ≠ .dirty) : s.flushLine i w = s :=
  if_neg (by simp [other])

/-- The sweep takes one line more. -/
theorem State.Flushed.flushLine {s t : State} {done : List (SetId × Way)} (h : s.Flushed t done)
    (i : SetId) (w : Way) : s.Flushed (t.flushLine i w) (done ++ [(i, w)]) := by
  by_cases dirty : (t.line i w).state = .dirty
  case neg =>
    have taken : ∀ {j v}, (s.line j v).state = .dirty → (j, v) ∈ done ++ [(i, w)] → (j, v)
        ∈ done := by
      intro j v dirty' mem
      by_contra notDone
      obtain ⟨rfl, rfl⟩ : j = i ∧ v = w := by simpa [notDone] using mem
      have line := h.line j v
      rw [if_neg fun both => notDone both.1] at line
      exact dirty ((congrArg Line.state line).trans dirty')
    rw [State.flushLine_of_other dirty]
    refine ⟨fun j v => ?_, fun j v mem dirty' => h.hands j v (taken dirty' mem) dirty',
      h.flush, h.rt,
      h.ec, h.bi, h.cu⟩
    rw [h.line]
    refine if_congr (and_congr_left fun dirty' => ⟨fun mem => ?_, taken dirty'⟩) rfl rfl
    exact List.mem_append_left _ mem
  case pos =>
    have stands : t.line i w = s.line i w := by
      have line := h.line i w
      split at line
      case isTrue =>
        rw [line] at dirty
        cases dirty
      case isFalse => exact line
    have dirty' : (s.line i w).state = .dirty := stands ▸ dirty
    have writes := State.HandsLine.of_count t i w { t.line i w with state := .writing } id
    have keeps : ∀ u, t.handsOver u → (((t.setLine i w { t.line i w with state := .writing }).count
        id).handLineWrite i w).handsOver u := fun u there =>
      (State.HandsOn.handOver _ _).handsOver u (State.handsOver_of_mc there rfl)
    rw [State.flushLine_of_dirty dirty]
    generalize ((t.setLine i w { t.line i w with state := .writing }).count id).handLineWrite
      i w = u
      at writes keeps
    rw [stands] at writes
    refine ⟨fun j v => ?_, fun j v mem dirty'' => ?_, ?_, writes.rt.trans h.rt,
      writes.ec.trans h.ec,
      writes.bi.trans h.bi, writes.cu.trans h.cu⟩
    · by_cases here : j = i ∧ v = w
      · obtain ⟨rfl, rfl⟩ := here
        rw [writes.line, if_pos ⟨by simp, dirty'⟩]
      · have same : u.line j v = t.line j v :=
          writes.onlyLine j v (by rwa [not_and_or] at here)
        rw [same, h.line]
        refine if_congr (and_congr_left fun _ => ?_) rfl rfl
        simp [here]
    · rw [List.mem_append, List.mem_singleton] at mem
      rcases mem with mem | same
      · exact keeps _ (h.hands j v mem dirty'')
      · cases same
        exact writes.handsOver
    · exact (congrArg BucketCache.flush writes.bc).trans h.flush

/-- The sweep takes every line. -/
theorem State.flushed_foldl (s : State) :
    s.Flushed (allLines.foldl (fun t p => t.flushLine p.1 p.2) s) allLines := by
  have fold : ∀ (l done : List (SetId × Way)) (t : State), s.Flushed t done →
      s.Flushed (l.foldl (fun t p => t.flushLine p.1 p.2) t) (done ++ l) := by
    intro l
    induction l with
    | nil => simp
    | cons p l ih =>
      intro done t h
      have next := ih (done ++ [p]) _ (h.flushLine p.1 p.2)
      rwa [List.append_assoc] at next
  exact fold allLines [] s s.flushed_refl

/-- The sweep ends when no line holds work for it (R75). -/
theorem State.anyUnwritten_iff (s : State) :
    (s.bc.sets.any fun c => c.lines.any Line.unwritten) = true ↔
      ∃ (i : SetId) (w : Way), (s.line i w).state = .dirty ∨ (s.line i w).state = .writing
        ∨ (s.line i w).state = .rewrite := by
  simp only [Vector.any_eq_true, Line.unwritten, Bool.or_eq_true, beq_iff_eq, or_assoc]
  exact ⟨fun ⟨i, hi, w, hw, h⟩ => ⟨⟨i, hi⟩, ⟨w, hw⟩, h⟩, fun ⟨i, w, h⟩ => ⟨i, i.isLt, w, w.isLt, h⟩⟩

theorem State.checkFlush_of_some {s : State} {k : SlotId} (flush : s.bc.flush = some k) :
    s.checkFlush = if s.bc.sets.any fun c => c.lines.any Line.unwritten then (s, [])
      else ({ s with bc := { s.bc with flush := none } }, [.finish k (.bare .done)]) := by
  simp only [State.checkFlush, flush]

/-- Settles O34: the store of a RAW_READ, its step, the ends of requests, and the flush sweep. -/
theorem storeCompletionEndsDone : Obligations.StoreCompletionEndsDone := by
  refine ⟨fun s tag a k awaits kind running hold storing considered behind => ?stored,
    fun s i w k rest c executes waiters context raw request waiting live => ?step,
    fun s k r running => ⟨fun hold => ?owner, fun q j pre post hold request keyed busy age waits
      guards before => ?released⟩,
    fun s k r request flush => ?flush, fun s k flush =>
    ⟨fun unwritten => ?goesOn, fun written => ?ends⟩⟩
  case stored =>
    have finished := State.finishRequest_of_owner (s := s.endAccess tag) running hold (.bare .done)
    have own := (s.endAccess tag).slot_answered_clearHold k (.bare .done)
    have others : s.onlySlot ((s.endAccess tag).answered k (.bare .done)).clearHold k :=
        fun j other =>
      ((s.endAccess tag).slot_answered_clearHold_of_ne other _).trans (if_neg (behind j other).1)
    have issued : ((s.endAccess tag).answered k (.bare .done)).clearHold.hasIssued (.resultWrite k)
        (recordAddr (s.slot k).batch (s.slot k).index + 40) 16 (resultBytes (.bare .done)) :=
      (s.endAccess tag).hasIssued_answered k (.bare .done)
    have ends : s.endsAccess tag ((s.endAccess tag).answered k (.bare .done)).clearHold :=
      State.keepsAccesses.ends (State.keepsAccesses_append (State.issueWrite_accesses _ _ _ _))
    obtain ⟨free, cu, tl, bc, mc, window⟩ :=
      (s.endAccess tag).frame_answered_clearHold k (.bare .done)
    have event := exec_storeCompletion awaits kind
    generalize ((s.endAccess tag).answered k (.bare .done)).clearHold = v at *
    have rests : v.considerNext = (v, []) :=
      State.considerNext_of_onlySlot others (by rw [own]; exact considered)
        fun j other => (behind j other).2
    have slots : ∀ j, v.closeEvent.slot j = v.slot j := State.slot_of_rt (State.closeEvent_rt v)
    refine ⟨v.closeEvent, event.trans ?_, congrArg Slot.state ((slots k).trans own),
      congrArg Slot.result ((slots k).trans own), issued.closeEvent, ?_,
      fun j other => (slots j).trans (others j other), ?_, ?_, ?_, ?_, ends.close,
      State.sameWindow.close window⟩
    · simp only [settle, cascadeBound_eq, runTasks_cons, runTask, finished, rests, List.append_nil,
        runTasks_nil]
      rfl
    · rw [State.closeEvent_rt, free]
    · rw [State.closeEvent_cu, cu]
      rfl
    · rw [State.closeEvent_tl, tl]
      rfl
    · rw [State.closeEvent_bc, bc]
      rfl
    · rw [State.closeEvent_mc, mc]
      rfl
  case step =>
    have ordinary : c.request.kind.replacesImage = false := by
      rw [raw]
      rfl
    have step := State.stepOn_ordinary context ordinary i w
    rw [tableStep_of_rawRead raw, State.applyStep_store rfl] at step
    have stepped := s.stepsOn_steppedAt i w k { c with image := some (s.line i w).image }
    have requests : ((s.steppedAt i w k { c with image := some (s.line i w).image }).slot k).request
        = some c.request := (congrArg Slot.request stepped.slot).trans request
    have stores := State.stores_startStore
      (s := s.steppedAt i w k { c with image := some (s.line i w).image }) live requests
      (congrArg Slot.context stepped.slot) rfl
    generalize s.steppedAt i w k { c with image := some (s.line i w).image } =
      v at stepped stores step
    generalize v.startStore k = x at stores step
    have head := State.executeHead_of waiters executes step
    have sets := congrArg BucketCache.sets stores.bc
    have line : x.line i w = s.line i w := (State.line_of_bc sets i w).trans stepped.line
    have leaves : x.modifyLine i w (fun l => { l with waiters := rest })
        = x.setLine i w { s.line i w with waiters := rest } := by rw [State.modifyLine, line]
    rw [leaves] at head
    have waiting' : ((x.setLine i w { s.line i w with waiters := rest }).cacheSet i).waiting =
        [] := by
      rw [State.setLine_waiting, State.cacheSet_of_sets sets, stepped.waiting, waiting]
    have settled := settle_retry (rest := rest) waiting'
    have slots : ∀ j, (x.setLine i w { s.line i w with waiters := rest }).closeEvent.slot j =
        x.slot j :=
      State.slot_of_rt (State.closeEvent_rt _)
    have closedSets := congrArg BucketCache.sets
      (State.closeEvent_bc (x.setLine i w { s.line i w with waiters := rest }))
    have bi : (x.setLine i w { s.line i w with waiters := rest }).bi = x.bi := rfl
    have may : v.mayIssue = s.mayIssue := by rw [State.mayIssue, stepped.ec, State.mayIssue]
    have stepBi : v.bi.accesses = s.bi.accesses := by rw [stepped.bi]
    refine ⟨(x.setLine i w { s.line i w with waiters := rest }).closeEvent, ?_,
      (State.line_of_bc closedSets i w).trans (State.line_setLine_self x i w _), ?_, ?_, ?_,
      fun j other => ?_, State.addsOnly.close ?_, State.keepsAccesses.close ?_,
      fun may' => State.hasIssued.closeEvent (stores.issued (may.trans may')), ?_, ?_, ?_, ?_,
      State.sameWindow.close ?_⟩
    · change outcomeOf (settle (s.executeHead i w)) = _
      rw [head, settled]
      rfl
    · exact ((stepped.onlyLine.trans (State.onlyLine_of_sets sets i w)).trans
        (State.onlyLine_setLine x i w _)).trans (State.onlyLine_of_sets closedSets i w)
    · rw [State.cacheSet_of_sets closedSets, State.setLine_order, State.cacheSet_of_sets sets,
        stepped.order]
    · rw [slots, stores.slot, stepped.slot, may]
    · rw [slots, stores.onlySlot j other, stepped.onlySlot j other]
    · have adds := stores.adds
      rwa [State.addsOnly, stepBi] at adds
    · have keeps := stores.keeps
      rwa [State.keepsAccesses, stepBi] at keeps
    · rw [State.closeEvent_rt]
      exact stores.hold.trans stepped.hold
    · rw [State.closeEvent_cu]
      exact stores.cu.trans stepped.cu
    · rw [State.closeEvent_tl]
      exact stores.tl.trans stepped.tl
    · rw [State.closeEvent_mc]
      exact stores.mc.trans stepped.mc
    · refine State.sameWindow.trans ⟨?_, ?_, ?_, stepped.pending⟩ stores.window
      · rw [stepped.bi]
      · rw [stepped.bi]
      · rw [stepped.ec]
  case owner =>
    exact ⟨_, State.finishRequest_of_owner running hold r, rfl,
      congrArg Slot.state (s.slot_answered_clearHold k r),
      fun j other => s.slot_answered_clearHold_of_ne other r⟩
  case released =>
    have apart : j ≠ k := fun here => busy (here ▸ waits)
    have key : (s.slot k).guardKey = some q.key :=
      (Slot.guardKey_eq_some_iff _ _).mpr ⟨q, request, keyed, rfl⟩
    have slots := s.onlySlot_answered k r
    have own := s.slot_answered_self k r
    have oldest : (s.answered k r).oldestWaiting q.key = some j :=
      State.oldestWaiting_of_first (s := s.answered k r) age (by rw [slots j apart, waits])
        (by rw [slots j apart, guards]) fun x mem waits' => by
          by_cases here : x = k
          · rw [here, own] at waits'
            cases waits'
          · rw [slots x here] at waits' ⊢
            exact before x mem waits'
    refine ⟨s.answered k r, (State.finishRequest_of_other running hold r).trans ?_, slots,
      congrArg Slot.state own, congrArg Slot.result own⟩
    rw [key, State.releaseKey, Option.bind_some, oldest]
    rfl
  case flush =>
    have swept := ({ s.setVisiting k r with bc := { s.bc with flush := some k } } :
        State).flushed_foldl
    have dispatched : s.dispatchRequest k = ((s.setVisiting k r).startFlush k, [.flushCheck]) := by
      simp only [State.dispatchRequest, request, flush]
    have starts : (s.setVisiting k r).startFlush k = allLines.foldl (fun t p => t.flushLine p.1 p.2)
      { s.setVisiting k r with bc := { s.bc with flush := some k } } := rfl
    rw [← starts] at swept
    have slots := fun j => State.slot_of_rt swept.rt j
    have stands : ∀ i w, ({ s.setVisiting k r with bc := { s.bc with flush := some k } } :
        State).line i w
      = s.line i w := fun i w => rfl
    refine ⟨_, dispatched, swept.flush, ?_, fun j other => ?_, swept.ec, swept.bi, swept.cu,
      fun i w => ⟨fun clean => ?_, fun dirty => ⟨?_, ?_⟩⟩⟩
    · rw [slots k]
      exact congrArg Slot.state (State.slot_setVisiting s k r)
    · rw [slots j]
      exact State.onlySlot_setVisiting s k r j other
    · rw [swept.line, stands, if_neg fun both => clean both.2]
    · rw [swept.line, stands, if_pos ⟨mem_allLines i w, dirty⟩]
    · exact swept.hands i w (mem_allLines i w) dirty
  case goesOn =>
    exact (State.checkFlush_of_some flush).trans (if_pos (s.anyUnwritten_iff.mpr unwritten))
  case ends =>
    exact (State.checkFlush_of_some flush).trans (if_neg fun any =>
      written (s.anyUnwritten_iff.mp any))

end Sys2Proof.Machine
end


section
/-! Faults on the bus (R89, R91, R106, R110, R162, R163) and the end of a release write (R105, R109,
R160). -/

namespace Sys2Proof.Machine

/-! ## The ends of the accesses of the chain and of buffer transfers -/

theorem exec_headerArrival {s : State} {tag : Nat} {a : BusAccess} (awaits : s.awaits tag a)
    (kind : a.kind = .headerRead) (d : Block64) :
    exec (.headerArrival tag d) s = .next ((s.endAccess tag).headerArrived a.addr d).closeEvent :=
  next_closeEvent (State.onEnd_of_awaits awaits (by rw [kind]; rfl) _)

theorem exec_takenWriteCompletion {s : State} {tag : Nat} {a : BusAccess} (awaits : s.awaits tag a)
    (kind : a.kind = .takenWrite) :
    exec (.takenWriteCompletion tag) s = .next (s.endAccess tag).takenWritten.closeEvent :=
  next_closeEvent (State.onEnd_of_awaits awaits (by rw [kind]; rfl) _)

theorem exec_linkArrival {s : State} {tag : Nat} {a : BusAccess} (awaits : s.awaits tag a)
    (kind : a.kind = .linkRead) (link : Addr) :
    exec (.linkArrival tag link) s = .next ((s.endAccess tag).linkArrived link).closeEvent :=
  next_closeEvent (State.onEnd_of_awaits awaits (by rw [kind]; rfl) _)

theorem exec_resultWriteCompletion {s : State} {tag : Nat} {a : BusAccess} {k : SlotId}
    (awaits : s.awaits tag a) (kind : a.kind = .resultWrite k) :
    exec (.resultWriteCompletion tag) s = .next ((s.endAccess tag).resultWritten k).closeEvent :=
  next_closeEvent ((State.onEnd_of_awaits awaits (by rw [kind]; rfl) _).trans
    (by simp only [State.resultEnds, kind]))

theorem exec_retirementWriteCompletion {s : State} {tag : Nat} {a : BusAccess}
    (awaits : s.awaits tag a) (kind : a.kind = .retirementWrite) :
    exec (.retirementWriteCompletion tag) s = .next
      (s.endAccess tag).retirementWritten.closeEvent :=
  next_closeEvent (State.onEnd_of_awaits awaits (by rw [kind]; rfl) _)

theorem exec_releaseWriteCompletion {s : State} {tag : Nat} {a : BusAccess} {b : Addr}
    (awaits : s.awaits tag a) (kind : a.kind = .releaseWrite b) :
    exec (.releaseWriteCompletion tag) s = .next ((s.endAccess tag).releaseWritten b).closeEvent :=
  next_closeEvent ((State.onEnd_of_awaits awaits (by rw [kind]; rfl) _).trans
    (by simp only [State.releaseEnds, kind]))

theorem exec_chainAccessFault {s : State} {tag : Nat} {a : BusAccess} (awaits : s.awaits tag a)
    (kind : a.kind.ofChain = true) :
    exec (.chainAccessFault tag) s = .next ((s.endAccess tag).chainFault a).closeEvent :=
  next_closeEvent (State.onEnd_of_awaits awaits kind _)

theorem exec_bufferAccessFault {s : State} {tag : Nat} {a : BusAccess} (awaits : s.awaits tag a)
    (kind : a.kind.ofBuffer = true) :
    exec (.bufferAccessFault tag) s = .next ((s.endAccess tag).bufferFault a).closeEvent :=
  next_closeEvent (State.onEnd_of_awaits awaits kind _)

/-! ## No STOP and no ABANDON in force -/

/-- Neither STOP nor ABANDON is in force: the engine is not STOPPING, nor in a stall that returns to
it. -/
def State.goesOn (s : State) : Prop :=
  s.ec.engine ≠ .stopping ∧ ¬(s.ec.engine = .stalled ∧ s.ec.resumeState = .stopping)

theorem State.goesOn_of_running {s : State} (running : s.ec.engine = .running) : s.goesOn := by
  simp [State.goesOn, running]

theorem State.abandoning_of_goesOn {s : State} (h : s.goesOn) : s.abandoning = false := by
  simp [State.abandoning, h.1]

theorem State.stopInForce_of_goesOn {s : State} (h : s.goesOn) : s.stopInForce = false := by
  have resumes := h.2
  simp only [State.stopInForce, Bool.or_eq_false_iff, Bool.and_eq_false_iff, beq_eq_false_iff_ne]
  exact ⟨.inl h.1, not_and_or.mp resumes⟩

/-- Outside STOP and ABANDON nothing closes (R90, R109, R110, R160). -/
theorem State.settleStop_of_goesOn {s : State} (h : s.goesOn) : s.settleStop = s := by
  have stops := State.stopInForce_of_goesOn h
  have abandons := State.abandoning_of_goesOn h
  have engine := h.1
  simp [State.settleStop, State.reportEmpty, State.closeChain, State.completeStop, stops, abandons,
    engine]

/-! ## A stall begins, or takes a cause more (R163) -/

theorem State.reportStall_of_running {s : State} (running : s.ec.engine = .running)
    (host bad : Bool) :
    s.reportStall host bad = s.enterStall .running host bad := by
  simp [State.reportStall, running]

/-- The Engine Control of a state that has just entered a stall, before its status update. -/
def State.stalledAs (s : State) (r : ResumeState) (host bad : Bool) : State :=
  { s with ec := { s.ec with
    stallHostFault := s.ec.stallHostFault || host, stallBadBatch := s.ec.stallBadBatch || bad
    engine := .stalled, ending := .none, resumeState := r
    status := { s.ec.status with stallReportIssued := false } } }

theorem State.enterStall_eq (s : State) (r : ResumeState) (host bad : Bool) :
    s.enterStall r host bad = (s.stalledAs r host bad).statusUpdate.raise causeStall := rfl

/-- A report of a fault or of a bad batch stalls the RUNNING engine and raises STALL (R163, R171).
-/
theorem State.reportStall_closes {s u : State} (ec : u.ec = s.ec) (running : s.ec.engine = .running)
    (host bad : Bool) : s.raisesCause (u.reportStall host bad).closeEvent causeStall
      ∧ (u.reportStall host bad).closeEvent.ec = { s.ec with
        engine := .stalled, ending := .none, resumeState := .running
        stallHostFault := s.ec.stallHostFault || host, stallBadBatch := s.ec.stallBadBatch || bad
        status := (u.reportStall host bad).closeEvent.ec.status
        intCause := (u.reportStall host bad).closeEvent.ec.intCause } := by
  rw [State.reportStall_of_running (by rw [ec, running]), State.enterStall_eq]
  refine ⟨State.raisesCause_update _ ?_ ?_ ?_ ?_ ?_ (by simp [State.stalledAs]), ?_⟩
  · simp [State.stalledAs, ec]
  · simp [State.stalledAs, ec]
  · simp [State.stalledAs, ec]
  · simp [State.stalledAs, ec]
  · simp [State.stalledAs, ec]
  · apply EngineControl.ext <;> simp [State.stalledAs, ec]

/-- In a stall a report adds its cause and the stall goes on. -/
theorem State.reportStall_of_stalled {s : State} (stalled : s.ec.engine = .stalled)
    (host bad : Bool) :
    ∃ status, (s.reportStall host bad).ec = { s.ec with
      stallHostFault := s.ec.stallHostFault || host, stallBadBatch := s.ec.stallBadBatch || bad
      status := status } := by
  refine ⟨(s.reportStall host bad).ec.status, ?_⟩
  have report : s.reportStall host bad = if (host && !s.ec.stallHostFault)
      || (bad && !s.ec.stallBadBatch)
      then (s.setStallCauses host bad).statusUpdate else s := by
    simp [State.reportStall, stalled]
  rw [report]
  split
  case isTrue => apply EngineControl.ext <;> simp [State.setStallCauses]
  case isFalse known =>
    apply EngineControl.ext <;> try rfl
    · cases host <;> cases h : s.ec.stallHostFault <;> simp_all
    · cases bad <;> cases h : s.ec.stallBadBatch <;> simp_all

@[simp] theorem State.reportStall_intMask (s : State) (host bad : Bool) :
    (s.reportStall host bad).ec.intMask = s.ec.intMask := by
  rw [State.reportStall_ec]

/-! ## Faults (R89, R106) -/

/-- The state that remembers a faulted access of the chain (R106). -/
def State.chainFaulted (s : State) (a : BusAccess) : State :=
  { s with cu := { s.cu with faulted := insertByTag a s.cu.faulted } }

/-- Outside STOP and ABANDON a fault of the chain is remembered and reported. -/
theorem State.chainFault_of_goesOn {s : State} (h : s.goesOn) (a : BusAccess) :
    s.chainFault a = (s.chainFaulted a).reportStall true false := by
  simp only [State.chainFault, State.abandoning_of_goesOn h, State.stopInForce_of_goesOn h,
    Bool.false_and, Bool.false_eq_true, if_false]
  rfl

/-- What stays as it was when the Chain Unit reports a fault. -/
theorem State.reportStall_frame (s : State) (tag : Nat) (a : BusAccess) (host bad : Bool) :
    let t := (((s.endAccess tag).chainFaulted a).reportStall host bad).closeEvent
    a ∈ t.cu.faulted ∧ t.cu = { s.cu with faulted := t.cu.faulted } ∧ s.sameTablePath t
      ∧ s.endsAccess tag t ∧ s.sameWindow t := by
  refine ⟨?_, ?_, State.sameTablePath.close ?_, State.endsAccess.close (State.endsAccess_of_eq ?_),
    State.sameWindow.close ?_⟩
  · simp [State.chainFaulted, mem_insertByTag]
  · simp [State.chainFaulted]
  · simp [State.sameTablePath, State.chainFaulted]
  · simp [State.chainFaulted]
  · simp [State.sameWindow, State.chainFaulted]

/-- The state that remembers a faulted buffer access of slot `k` (R89). -/
def State.bufferFaulted (s : State) (k : SlotId) (a : BusAccess) : State :=
  { s.setSlot k { s.slot k with transfer := .faulted } with
    rt := { (s.setSlot k { s.slot k with transfer := .faulted }).rt with
      faulted := insertByTag a s.rt.faulted } }

theorem State.bufferFault_of_goesOn {s : State} (h : s.goesOn) {a : BusAccess} {k : SlotId}
    (kind : a.kind = .bufferRead k ∨ a.kind = .bufferWrite k) :
    s.bufferFault a = (s.bufferFaulted k a).reportStall true false := by
  have slot : a.kind.bufferSlot = some k := by
    rcases kind with h | h <;> rw [h] <;> rfl
  simp only [State.bufferFault, State.abandoning_of_goesOn h, Bool.false_eq_true, if_false,
    State.markTransfer, slot]
  rfl

/-- What the end of an access leaves under ABANDON, before the drain goes on: its slot FREE, its
mark cleared (R91, R110). -/
def State.abandonedEnd (s : State) (kind : AccessKind) : State :=
  match kind with
  | .recordRead k | .resultWrite k | .bufferRead k | .bufferWrite k => s.freed k
  | .retirementWrite => { s with cu := { s.cu with retirementOutstanding := false } }
  | .releaseWrite b => { s with cu := { s.cu with releases := s.cu.releases.erase b } }
  | _ => s

theorem State.abandonedEnd_ec (s : State) (kind : AccessKind) : (s.abandonedEnd kind).ec =
    s.ec := by
  cases kind <;> rfl

theorem State.faultAbandoned_eq (s : State) {kind : AccessKind} (chain : kind.ofChain = true) :
    s.faultAbandoned kind = (s.abandonedEnd kind).settleStop := by
  cases kind <;> first | rfl | cases chain

/-- Settles O32, the stalls by the report of the fault, the faults under ABANDON by what each leaves
to the drain. -/
theorem busFaultsStallTheEngine : Obligations.BusFaultsStallTheEngine := by
  refine ⟨fun s tag a awaits => ⟨fun chain running => ?running, fun chain stalled resumes =>
    ?stalled,
      fun k kind running => ?buffer⟩,
    fun s tag a c awaits stopping abandon phase kinds => ?abandoned⟩
  case running =>
    have goes : (s.endAccess tag).goesOn := State.goesOn_of_running running
    have event := exec_chainAccessFault awaits chain
    rw [State.chainFault_of_goesOn goes] at event
    obtain ⟨raises, ec⟩ := State.reportStall_closes (s := s)
        (u := (s.endAccess tag).chainFaulted a) rfl
      running true false
    obtain ⟨mem, cu, path, ends, window⟩ := s.reportStall_frame tag a true false
    generalize (((s.endAccess tag).chainFaulted a).reportStall true false).closeEvent = t at *
    refine ⟨t, event, ?_, ?_, ?_, raises, ?_, ?_, ?_, mem, cu, path, ends, window⟩
    all_goals rw [ec]
    all_goals simp
  case stalled =>
    have goes : (s.endAccess tag).goesOn := ⟨by simp [stalled], by simp [resumes]⟩
    have event := exec_chainAccessFault awaits chain
    rw [State.chainFault_of_goesOn goes] at event
    obtain ⟨status, ec⟩ := State.reportStall_of_stalled (s := (s.endAccess tag).chainFaulted a)
        stalled true false
    obtain ⟨mem, cu, path, ends, window⟩ := s.reportStall_frame tag a true false
    have ec' : (((s.endAccess tag).chainFaulted a).reportStall true false).closeEvent.ec =
        { s.ec with
        stallHostFault := true
        status := (((s.endAccess tag).chainFaulted a).reportStall true false).closeEvent.ec.status
          } := by
      rw [show ((s.endAccess tag).chainFaulted a).ec = s.ec from rfl] at ec
      generalize ((s.endAccess tag).chainFaulted a).reportStall true false = u at ec
      apply EngineControl.ext <;> simp [ec]
    generalize (((s.endAccess tag).chainFaulted a).reportStall true false).closeEvent = t at *
    refine ⟨t, event, ?_, ?_, ?_, ?_, ?_, mem, cu, path, ends, window⟩
    all_goals rw [ec']
    exact stalled
  case buffer =>
    have goes : (s.endAccess tag).goesOn := State.goesOn_of_running running
    have event := exec_bufferAccessFault awaits (by rcases kind with h | h <;> rw [h] <;> rfl)
    rw [State.bufferFault_of_goesOn goes kind] at event
    obtain ⟨raises, ec⟩ := State.reportStall_closes (s := s)
        (u := (s.endAccess tag).bufferFaulted k a) rfl
      running true false
    have rt : (((s.endAccess tag).bufferFaulted k a).reportStall true false).closeEvent.rt
        = ((s.endAccess tag).bufferFaulted k a).rt := by simp
    have slot : ((s.endAccess tag).bufferFaulted k a).slot k =
        { s.slot k with transfer := .faulted } :=
      State.slot_setSlot_self (s.endAccess tag) k _
    have slots : ∀ j, j ≠ k → ((s.endAccess tag).bufferFaulted k a).slot j = s.slot j :=
      fun j other => State.slot_setSlot_of_ne (s.endAccess tag) _ other
    refine ⟨_, event, ?_, ?_, ?_, raises, ?_, ?_, ?_, (State.slot_of_rt rt k).trans slot,
      fun j other => (State.slot_of_rt rt j).trans (slots j other), ?_, ?_, ?_, ?_, ?_, ?_,
      State.endsAccess.close (State.endsAccess_of_eq ?_), State.sameWindow.close ?_⟩
    · rw [ec]
    · rw [ec]
    · rw [ec]
      simp
    · rw [ec]
    · rw [ec]
    · rw [rt]
      exact mem_insertByTag.mpr (.inl rfl)
    · rw [rt]
      rfl
    · rw [rt]
      rfl
    · simp [State.bufferFaulted]
    · simp [State.bufferFaulted]
    · simp [State.bufferFaulted]
    · simp [State.bufferFaulted]
    · simp [State.bufferFaulted]
    · simp [State.sameWindow, State.bufferFaulted]
  case abandoned =>
    have abandons : (s.endAccess tag).abandoning =
        true := by simp [State.abandoning, stopping, abandon]
    have ec : ((s.endAccess tag).abandonedEnd a.kind).ec = s.ec := State.abandonedEnd_ec _ _
    have drains := State.drainsAbandoned_settleStop (u := (s.endAccess tag).abandonedEnd a.kind)
      (by rw [ec, stopping]) (by rw [ec, abandon])
    refine ⟨_, Eq.trans ?_
      (next_closeEvent (rfl : ((s.endAccess tag).abandonedEnd a.kind).settleStop = _)),
      drains⟩
    rcases kinds with ⟨kind, rfl⟩ | ⟨⟨k, kind⟩, rfl⟩ | ⟨kind, rfl⟩ | ⟨⟨k, kind⟩, rfl⟩
      | ⟨⟨b, kind⟩, rfl⟩
    · refine (exec_chainAccessFault awaits kind).trans (next_closeEvent ?_)
      exact (if_pos abandons).trans (State.faultAbandoned_eq _ kind)
    · refine (exec_bufferAccessFault awaits (by rcases kind with h | h <;> rw [h] <;> rfl)).trans
        (next_closeEvent ((if_pos abandons).trans ?_))
      rcases kind with h | h <;> rw [h] <;> rfl
    · refine (exec_takenWriteCompletion awaits kind).trans (next_closeEvent ?_)
      rw [kind]
      exact if_neg (by simpa using phase)
    · refine (exec_resultWriteCompletion awaits kind).trans (next_closeEvent ?_)
      rw [kind]
      exact if_pos abandons
    · refine (exec_releaseWriteCompletion awaits kind).trans (next_closeEvent ?_)
      rw [kind]
      rfl

end Sys2Proof.Machine
end


section
/-! Events of the Chain Unit (R97, R100, R101, R105, R109): what they leave alone, the link that
arrives, and the closing of the chain under STOP. -/

namespace Sys2Proof.Machine

/-! ## What an operation of the Chain Unit leaves alone -/

/-- From `s` to `t` the Chain Unit acts: the table's path and the register window stay, no access
ends, and every access added is of these kinds. -/
structure State.ChainActs (s t : State) (p : AccessKind → Bool) : Prop where
  path : s.sameTablePath t
  window : s.sameWindow t
  keeps : s.keepsAccesses t
  adds : s.addsOnly t p

namespace State.ChainActs

variable {s t u : State} {p : AccessKind → Bool}

theorem refl (s : State) (p : AccessKind → Bool) : s.ChainActs s p :=
  ⟨⟨rfl, rfl, rfl, rfl⟩, ⟨rfl, rfl, rfl, rfl⟩, State.keepsAccesses_of_eq rfl,
    State.addsOnly_of_eq rfl⟩

theorem trans (h : s.ChainActs t p) (h' : t.ChainActs u p) : s.ChainActs u p where
  path := by
    obtain ⟨rt, tl, bc, mc⟩ := h.path
    obtain ⟨rt', tl', bc', mc'⟩ := h'.path
    exact ⟨rt'.trans rt, tl'.trans tl, bc'.trans bc, mc'.trans mc⟩
  window := h.window.trans h'.window
  keeps := h.keeps.trans h'.keeps
  adds := h.adds.trans h'.adds

/-- The Bus Interface stands still. -/
theorem of_bi (bi : t.bi = s.bi) (path : s.sameTablePath t) (mask : t.ec.intMask = s.ec.intMask)
    (pending : t.pending = s.pending) (p : AccessKind → Bool) : s.ChainActs t p :=
  ⟨path, ⟨by rw [bi], by rw [bi], mask, pending⟩, State.keepsAccesses_of_eq (by rw [bi]),
    State.addsOnly_of_eq (by rw [bi])⟩

theorem issueWrite (s : State) {kind : AccessKind} (addr : Addr) (data : List Byte)
    (h : p kind = true) : s.ChainActs (s.issueWrite kind addr data) p :=
  ⟨⟨rfl, rfl, rfl, rfl⟩, ⟨rfl, rfl, rfl, rfl⟩,
    State.keepsAccesses_append (State.issueWrite_accesses s kind addr data),
    State.addsOnly_append (State.issueWrite_accesses s kind addr data) (by simpa using h)⟩

theorem issueRead (s : State) {kind : AccessKind} (addr : Addr) (size : Nat) (h : p kind = true) :
    s.ChainActs (s.issueRead kind addr size) p :=
  ⟨⟨rfl, rfl, rfl, rfl⟩, ⟨rfl, rfl, rfl, rfl⟩,
    State.keepsAccesses_append (State.issueRead_accesses s kind addr size),
    State.addsOnly_append (State.issueRead_accesses s kind addr size) (by simpa using h)⟩

theorem withChain (s : State) (c : ChainUnit) (p : AccessKind → Bool) :
    s.ChainActs { s with cu := c } p :=
  of_bi (s := s) (t := { s with cu := c }) rfl ⟨rfl, rfl, rfl, rfl⟩ rfl rfl p

theorem release (s : State) (a : Addr) (h : p (.releaseWrite a) = true) :
    s.ChainActs (s.release a) p := by
  unfold State.release
  split
  · exact (withChain s _ p).trans (issueWrite _ _ _ h)
  · exact withChain s _ p

theorem reportStall (s : State) (host bad : Bool) (p : AccessKind → Bool) :
    s.ChainActs (s.reportStall host bad) p :=
  of_bi (by simp) (by simp [State.sameTablePath]) (by simp) (by simp) p

theorem raises (s : State) (cause : BitVec 5) (p : AccessKind → Bool) :
    s.ChainActs (s.statusUpdate.raise cause) p :=
  of_bi (by simp) (by simp [State.sameTablePath]) (by simp) (by simp) p

/-- What the event leaves that ends an access. -/
theorem close {tag : Nat} (h : (s.endAccess tag).ChainActs t p) : s.endsAccess tag t.closeEvent
    ∧ s.sameTablePath t.closeEvent ∧ s.sameWindow t.closeEvent ∧ s.addsOnly t.closeEvent p :=
  ⟨State.endsAccess.close (State.keepsAccesses.ends h.keeps), State.sameTablePath.close h.path,
    State.sameWindow.close h.window, State.addsOnly.close (State.addsOnly_of_endAccess h.adds)⟩

end State.ChainActs

/-! ## Closing under STOP (R90, R109, R160) -/

/-- The report that every slot is FREE is held (R90). -/
def State.tableReported (s : State) : State :=
    { s with ec := { s.ec with tableEmpty := s.allFree } }

/-- The chain as a STOP closes it (R109). -/
def State.chainStopped (s : State) : State :=
  { s with
    cu := { s.cu with phase := .idle, anchor := none, nudgePending := false, nextAddr := none }
    ec := { s.ec with chainClosed := true } }

theorem State.abandoning_of_stop {s : State} (h : s.stopInForce = true) : s.abandoning = false := by
  simp only [State.stopInForce, Bool.or_eq_true, Bool.and_eq_true, beq_iff_eq] at h
  rcases h with ⟨engine, ending⟩ | ⟨engine, resumes⟩ <;> simp [State.abandoning, *]

theorem State.settleStop_of_stop {s : State} (h : s.stopInForce = true) :
    s.settleStop = s.tableReported.closeAfterStop.completeStop := by
  have reported : s.reportEmpty = s.tableReported := if_pos (by simp [h])
  have abandons : s.tableReported.abandoning = false := State.abandoning_of_stop h
  have stops : s.tableReported.stopInForce = true := h
  rw [State.settleStop, reported, State.closeChain, abandons, stops]
  rfl

/-- A batch open or a retirement outstanding holds the chain open. -/
theorem State.closeAfterStop_of_open {s : State}
    (h : s.cu.batches ≠ [] ∨ s.cu.retirementOutstanding = true) : s.closeAfterStop = s :=
  if_neg (by simpa using fun empty => h.resolve_left (not_not_intro empty))

/-- The anchor that was not released is released. -/
theorem State.closeAfterStop_of_unreleased {s : State} {a : Addr} {m : Bool}
    (batches : s.cu.batches = []) (retired : s.cu.retirementOutstanding = false)
    (anchor : s.cu.anchor = some ⟨a, m, false⟩) :
    s.closeAfterStop = if s.mayIssue then s.release a else s := by
  simp [State.closeAfterStop, batches, retired, anchor]

/-- With the anchor released and nothing of the Chain Unit outstanding the chain is closed. -/
theorem State.closeAfterStop_of_closed {s : State} {a : Addr} {m : Bool}
    (phase : s.cu.phase = .ended)
    (batches : s.cu.batches = []) (retired : s.cu.retirementOutstanding = false)
    (anchor : s.cu.anchor = some ⟨a, m, true⟩) (faulted : s.cu.faulted = [])
    (releases : s.cu.releasesWaiting = []) (quiet : s.outstanding AccessKind.ofChain = false) :
    s.closeAfterStop = s.chainStopped := by
  simp [State.closeAfterStop, batches, retired, anchor, phase, quiet, faulted, releases,
    State.chainStopped]

theorem State.closeAfterStop_cases (s : State) : s.closeAfterStop = s
    ∨ (∃ a, s.closeAfterStop = s.release a) ∨ s.closeAfterStop = s.chainStopped := by
  unfold State.closeAfterStop
  repeat' split
  · exact .inr (.inl ⟨_, rfl⟩)
  · exact .inl rfl
  · exact .inr (.inr rfl)
  all_goals exact .inl rfl

theorem State.completeStop_of_open {s : State} (h : s.ec.chainClosed = false) :
    s.completeStop = s :=
  if_neg (by simp [h])

/-- The engine as the completion of STOPPING leaves it, before its status update (R160). -/
def State.stopped (s : State) : State :=
  { s with ec := { s.ec with
    engine := .ready, ending := .none, tableEmpty := false, chainClosed := false } }

theorem State.completeStop_of_closed {s : State} (stopping : s.ec.engine = .stopping)
    (empty : s.ec.tableEmpty = true) (closed : s.ec.chainClosed = true) :
    s.completeStop = s.stopped.statusUpdate.raise causeState :=
  if_pos (by simp [stopping, empty, closed])

theorem State.ChainActs.completeStop (s : State) (p : AccessKind → Bool) :
    s.ChainActs s.completeStop p := by
  refine State.ChainActs.of_bi (by simp) (by simp [State.sameTablePath]) ?_ (by simp) p
  unfold State.completeStop
  split
  · simp
  · rfl

/-- Under STOP an event of the chain ends with at most a release write (R109). -/
theorem State.ChainActs.settleStop {s : State} (h : s.stopInForce = true) :
    s.ChainActs s.settleStop AccessKind.isReleaseWrite := by
  have reported : s.ChainActs s.tableReported AccessKind.isReleaseWrite :=
    State.ChainActs.of_bi (s := s) (t := s.tableReported) rfl ⟨rfl, rfl, rfl, rfl⟩ rfl rfl _
  rw [State.settleStop_of_stop h]
  refine (reported.trans ?_).trans (State.ChainActs.completeStop _ _)
  obtain same | ⟨a, releases⟩ | closes := s.tableReported.closeAfterStop_cases
  · rw [same]
    exact State.ChainActs.refl _ _
  · rw [releases]
    exact State.ChainActs.release _ a rfl
  · rw [closes]
    exact State.ChainActs.of_bi (s := s.tableReported) (t := s.tableReported.chainStopped)
      rfl ⟨rfl, rfl, rfl, rfl⟩ rfl rfl _

theorem State.allFree_iff (s : State) : s.allFree = true ↔ ∀ k : SlotId, (s.slot k).state =
    .free := by
  simp [State.allFree, allSlots]

/-! ## The end of a release write (R105) -/

/-- Settles O31: nothing but the batch is forgotten in RUNNING, and the last end closes the chain
under STOP. -/
theorem releaseCompletionForgetsTheBatch : Obligations.ReleaseCompletionForgetsTheBatch := by
  intro s tag a b awaits kind
  have event := exec_releaseWriteCompletion awaits kind
  refine ⟨fun running law => ?_, fun x m stopping stop phase batches retired anchor faulted releases
    quiet free => ?_⟩
  · have goes : ((s.endAccess tag).forgetRelease b).goesOn := State.goesOn_of_running running
    rw [State.releaseWritten, State.settleStop_of_goesOn goes] at event
    exact event.trans (congrArg Host.Outcome.next (State.closeEvent_of_ec law rfl rfl rfl))
  · have stops : ((s.endAccess tag).forgetRelease b).stopInForce = true := by
      change s.stopInForce = true
      simp [State.stopInForce, stopping, stop]
    have closes : ((s.endAccess tag).forgetRelease b).tableReported.closeAfterStop
        = ((s.endAccess tag).forgetRelease b).tableReported.chainStopped :=
      State.closeAfterStop_of_closed phase batches retired anchor faulted releases quiet
    have empty : ((s.endAccess tag).forgetRelease b).tableReported.chainStopped.ec.tableEmpty =
        true :=
      s.allFree_iff.mpr free
    have completes : ((s.endAccess tag).forgetRelease b).tableReported.chainStopped.completeStop
        = ((s.endAccess tag).forgetRelease b).tableReported.chainStopped.stopped.statusUpdate.raise
          causeState := State.completeStop_of_closed stopping empty rfl
    have settled := State.settleStop_of_stop stops
    rw [closes, completes] at settled
    rw [State.releaseWritten, settled] at event
    have ec : ((s.endAccess tag).forgetRelease b).tableReported.chainStopped.stopped.ec =
        { s.ec with
      engine := .ready, ending := .none, tableEmpty := false, chainClosed := false } := rfl
    have cu : ((s.endAccess tag).forgetRelease b).tableReported.chainStopped.stopped.cu =
        { s.cu with
      releases := s.cu.releases.erase b, phase := .idle, anchor := none, nudgePending := false
      nextAddr := none } := rfl
    have acts : (s.endAccess tag).ChainActs
        ((s.endAccess tag).forgetRelease b).tableReported.chainStopped.stopped (fun _ => false) :=
      State.ChainActs.of_bi (s := s.endAccess tag)
        (t := ((s.endAccess tag).forgetRelease b).tableReported.chainStopped.stopped)
        rfl ⟨rfl, rfl, rfl, rfl⟩ rfl rfl _
    generalize ((s.endAccess tag).forgetRelease b).tableReported.chainStopped.stopped = u at *
    obtain ⟨ends, path, window, adds⟩ := (acts.trans (State.ChainActs.raises u causeState _)).close
    refine ⟨_, event, ?_, ?_, ?_, path, ends, adds, window⟩
    · apply EngineControl.ext <;> simp [ec]
    · simp [cu]
    · exact State.raisesCause_update causeState (by simp [ec]) (by simp [ec]) (by simp [ec])
        (by simp [ec]) (by simp [ec]) (by simp [ec])

end Sys2Proof.Machine
end


section
/-! The anchor's link arrives (R100, R101, R109, R110). -/

namespace Sys2Proof.Machine

/-- The state with this record of the Chain Unit. -/
def State.withChain (s : State) (c : ChainUnit) : State := { s with cu := c }

@[simp] theorem State.withChain_cu (s : State) (c : ChainUnit) : (s.withChain c).cu = c := rfl
@[simp] theorem State.withChain_ec (s : State) (c : ChainUnit) : (s.withChain c).ec = s.ec := rfl
@[simp] theorem State.withChain_bi (s : State) (c : ChainUnit) : (s.withChain c).bi = s.bi := rfl

theorem State.readsHeader_endAccess {s : State} (tag : Nat) (h : s.readsHeader = false) :
    (s.endAccess tag).readsHeader = false := by
  simp only [State.readsHeader, Bool.or_eq_false_iff] at h ⊢
  obtain ⟨quiet, faulted⟩ := h
  exact ⟨State.outstanding_endAccess_of_false tag quiet, faulted⟩

/-! ## The link that is followed (R100, R101) -/

/-- The Chain Unit that wants the header at a link (R100). -/
def ChainUnit.wants (c : ChainUnit) (link : Addr) : ChainUnit :=
  { c with phase := .header, nextAddr := some link }

theorem State.followLink_of_ne {s : State} {link : Addr} (h : link ≠ 0) :
    s.followLink link = (s.withChain (s.cu.wants link)).readHeader :=
  if_pos (by simpa using h)

theorem State.followLink_of_full {s : State} {link : Addr} (h : link ≠ 0)
    (full : 8 ≤ s.cu.batches.length) : s.followLink link = s.withChain (s.cu.wants link) := by
  rw [State.followLink_of_ne h]
  exact State.readHeader_of_closed (.inr (.inl full))

theorem State.followLink_of_room {s : State} {link : Addr} (h : link ≠ 0)
    (aligned : link.toNat % 64 = 0) (room : s.cu.batches.length < 8) (may : s.mayIssue = true)
    (quiet : s.readsHeader = false) :
    s.followLink link = (s.withChain (s.cu.wants link)).issueRead .headerRead link 64 := by
  have may' : (s.withChain (s.cu.wants link)).mayIssue = true := may
  have quiet' : (s.withChain (s.cu.wants link)).readsHeader = false := quiet
  have reads := State.readHeader_of_aligned (s := s.withChain (s.cu.wants link)) rfl room rfl
    ((aligned64_iff link).mpr aligned)
  rw [State.followLink_of_ne h, reads, if_pos (by rw [may', quiet']; rfl)]

/-- The Chain Unit that has refused a batch (R97). -/
def ChainUnit.refused (c : ChainUnit) : ChainUnit := { c with phase := .blocked, badBatch := true }

theorem State.followLink_of_misaligned {s : State} {link : Addr} (h : link ≠ 0)
    (misaligned : link.toNat % 64 ≠ 0) (room : s.cu.batches.length < 8) : s.followLink link =
      (s.withChain (s.cu.wants link).refused).reportStall false true := by
  exact (State.followLink_of_ne h).trans (State.readHeader_of_misaligned
    (s := s.withChain (s.cu.wants link)) rfl room rfl
    (by rw [← Bool.not_eq_true, aligned64_iff]; exact misaligned))

theorem State.followLink_of_nudge {s : State} {n : Anchor} (nudge : s.cu.nudgePending = true)
    (anchor : s.cu.anchor = some n) (may : s.mayIssue = true) : s.followLink 0 =
      (s.withChain { s.cu with phase := .link, nudgePending := false }).issueRead .linkRead n.addr
      8 := by
  have reads : s.followLink 0 = (s.withChain { s.cu with nudgePending := false }).readLink := by
    simp [State.followLink, nudge, State.withChain]
  exact reads.trans (State.readLink_of_mayIssue (s := s.withChain
    { s.cu with nudgePending := false })
    may anchor)

theorem State.raise_zero (s : State) : s.raise 0 = s := by
  unfold State.raise
  split <;> simp

theorem State.followLink_of_park {s : State} (nudge : s.cu.nudgePending = false) : s.followLink 0 =
    ((s.withChain { s.cu with phase := .parked, parked := true }).statusUpdate.raise
      (if s.ec.parkEnable then causePark else 0)) := by
  have parks : s.followLink 0 = s.park := by simp [State.followLink, nudge]
  rw [parks, State.park]
  split
  · rfl
  · rw [State.raise_zero]
    rfl

/-- What following a link leaves alone. -/
theorem State.ChainActs.followLink {s : State} {link : Addr} {n : Anchor} (may : s.mayIssue = true)
    (anchor : s.cu.anchor = some n) (quiet : s.readsHeader = false) :
    s.ChainActs (s.followLink link) fun k => k == .headerRead || k == .linkRead := by
  by_cases zero : link = 0
  · subst zero
    cases nudge : s.cu.nudgePending with
    | true =>
      rw [State.followLink_of_nudge nudge anchor may]
      exact (State.ChainActs.withChain s _ _).trans (State.ChainActs.issueRead _ _ _ rfl)
    | false =>
      rw [State.followLink_of_park nudge]
      exact (State.ChainActs.withChain s _ _).trans (State.ChainActs.raises _ _ _)
  · by_cases room : s.cu.batches.length < 8
    · by_cases aligned : link.toNat % 64 = 0
      · rw [State.followLink_of_room zero aligned room may quiet]
        exact (State.ChainActs.withChain s _ _).trans (State.ChainActs.issueRead _ _ _ rfl)
      · rw [State.followLink_of_misaligned zero aligned room]
        exact (State.ChainActs.withChain s _ _).trans (State.ChainActs.reportStall _ _ _ _)
    · rw [State.followLink_of_full zero (Nat.not_lt.mp room)]
      exact State.ChainActs.withChain s _ _

/-! ## A link or header that a STOP makes useless (R109) -/

theorem State.linkArrived_of_stop {s : State} (h : s.stopInForce = true) (link : Addr) :
    s.linkArrived link = s.endFetch.settleStop := by
  rw [State.linkArrived, State.abandoning_of_stop h, h]
  rfl

theorem State.headerArrived_of_stop {s : State} (h : s.stopInForce = true) (a : Addr)
    (d : Block64) :
    s.headerArrived a d = s.endFetch.settleStop := by
  rw [State.headerArrived, State.abandoning_of_stop h, h]
  rfl

theorem State.chainFault_of_stop {s : State} (h : s.stopInForce = true) {a : BusAccess}
    (unused : a.kind.unusedUnderStop = true) : s.chainFault a = s.endFetch.settleStop := by
  rw [State.chainFault, State.abandoning_of_stop h, h, unused]
  rfl

/-! ## Release writes that issue (R105) -/

theorem State.release_of_mayIssue {s : State} (may : s.mayIssue = true) (a : Addr) : s.release a =
    (s.withChain { s.cu with
      anchor := s.cu.anchor.map fun x => if x.addr == a then { x with released := true } else x
      releases := s.cu.releases ++ [a] }).issueWrite (.releaseWrite a) (a + 26) releasedBytes :=
  if_pos may

theorem State.hasIssued_release {s : State} (may : s.mayIssue = true) (a : Addr) :
    (s.release a).hasIssued (.releaseWrite a) (a + 26) 1 [4] := by
  rw [State.release_of_mayIssue may]
  exact State.hasIssued_issueWrite_of_length _ _ _ rfl

theorem State.release_cu_of_mayIssue {s : State} (may : s.mayIssue = true) (a : Addr) :
    (s.release a).cu = { s.cu with
      anchor := s.cu.anchor.map fun x => if x.addr == a then { x with released := true } else x
      releases := s.cu.releases ++ [a] } := by
  rw [State.release_of_mayIssue may]
  rfl

/-- Settles O28: the link by its value, the nudge and the places free, and the link or header that a
STOP or an ABANDON makes useless. -/
theorem linkArrivalIsFollowed : Obligations.LinkArrivalIsFollowed := by
  refine ⟨fun s tag a link n awaits kind running phase anchor quiet => ?followed,
    fun s tag a link d c awaits kinds => ⟨fun stops closed => ?stopped, fun stopping abandon =>
      ?abandoned⟩⟩
  case followed =>
    have goes : (s.endAccess tag).goesOn := State.goesOn_of_running running
    have may : (s.endAccess tag).mayIssue = true := State.mayIssue_of_running running
    have quiet' := State.readsHeader_endAccess tag quiet
    have follows : (s.endAccess tag).linkArrived link = (s.endAccess tag).followLink link := by
      have phase' : (s.endAccess tag).cu.phase = .link := phase
      rw [State.linkArrived, State.abandoning_of_goesOn goes, State.stopInForce_of_goesOn goes,
        phase']
      rfl
    have event := exec_linkArrival awaits kind link
    rw [follows] at event
    obtain ⟨ends, path, window, adds⟩ :=
      (State.ChainActs.followLink (s := s.endAccess tag) (link := link) may anchor quiet').close
    refine ⟨_, event, ends, path, window, adds, fun nonzero fits => ?_,
      fun nonzero misaligned room => ?_,
      fun zero nudge => ?_, fun zero nudge => ?_⟩
    · by_cases room : s.cu.batches.length < 8
      · have aligned := fits.resolve_right (Nat.not_le.mpr room)
        rw [State.followLink_of_room (s := s.endAccess tag) nonzero aligned room may quiet']
        refine ⟨State.closeEvent_cu _, ?_, fun _ => (State.hasIssued_issueRead _ _ _ _).closeEvent,
          fun full => absurd room (Nat.not_lt.mpr full)⟩
        apply EngineControl.ext <;> simp
      · have full := Nat.not_lt.mp room
        rw [State.followLink_of_full (s := s.endAccess tag) nonzero full]
        refine ⟨State.closeEvent_cu _, ?_, fun h => absurd h room, fun _ => State.addsOnly.close ?_⟩
        · apply EngineControl.ext <;> simp
        · exact State.addsOnly_of_endAccess_eq tag rfl
    · rw [State.followLink_of_misaligned (s := s.endAccess tag) nonzero misaligned room]
      obtain ⟨raises, ec⟩ := State.reportStall_closes (s := s)
        (u := (s.endAccess tag).withChain ((s.endAccess tag).cu.wants link).refused)
        rfl running false true
      refine ⟨?_, raises, ec.trans ?_⟩
      · rw [State.closeEvent_cu, State.reportStall_cu]
        rfl
      · rw [Bool.or_false, Bool.or_true]
    · subst zero
      rw [State.followLink_of_nudge (s := s.endAccess tag) nudge anchor may]
      refine ⟨State.closeEvent_cu _, (State.hasIssued_issueRead _ _ _ _).closeEvent, ?_⟩
      apply EngineControl.ext <;> simp
    · subst zero
      rw [State.followLink_of_park (s := s.endAccess tag) nudge]
      generalize parks : (s.endAccess tag).withChain { (s.endAccess tag).cu with
        phase := .parked, parked := true } = v
      have cu : v.cu = { s.cu with phase := .parked, parked := true } := by rw [← parks]; rfl
      have ec : v.ec = s.ec := by rw [← parks]; rfl
      refine ⟨?_, ?_, ?_⟩
      · simp [cu]
      · apply EngineControl.ext <;> simp [ec]
      · have raises := State.raisesCause_update (s := s) (u := v)
          (if s.ec.parkEnable then causePark else 0) (by simp [ec]) (by simp [ec]) (by simp [ec])
          (by simp [ec]) (by simp [ec]) (by simp [ec, running])
        exact raises
  case stopped =>
    have stops' : (s.endAccess tag).stopInForce = true := by
      change s.stopInForce = true
      rcases stops with ⟨h, h'⟩ | ⟨h, h'⟩ <;> simp [State.stopInForce, h, h']
    have event : exec c s = .next (s.endAccess tag).endFetch.settleStop.closeEvent := by
      rcases kinds with ⟨kind, rfl | rfl⟩ | ⟨kind, rfl | rfl⟩
      · exact (exec_linkArrival awaits kind link).trans
          (next_closeEvent (State.linkArrived_of_stop stops' link))
      · exact (exec_chainAccessFault awaits (by rw [kind]; rfl)).trans
          (next_closeEvent (State.chainFault_of_stop stops' (by rw [kind]; rfl)))
      · exact (exec_headerArrival awaits kind d).trans
          (next_closeEvent (State.headerArrived_of_stop stops' _ d))
      · exact (exec_chainAccessFault awaits (by rw [kind]; rfl)).trans
          (next_closeEvent (State.chainFault_of_stop stops' (by rw [kind]; rfl)))
    have ends' : (s.endAccess tag).ChainActs (s.endAccess tag).endFetch AccessKind.isReleaseWrite :=
      State.ChainActs.withChain _ _ _
    obtain ⟨ends, path, window, adds⟩ := (ends'.trans (State.ChainActs.settleStop stops')).close
    have settled := State.settleStop_of_stop (s := (s.endAccess tag).endFetch) stops'
    refine ⟨_, event, ends, path, window, adds, fun isOpen => ?_,
      fun x m batches retired anchor stopping => ?_⟩
    · have stays : (s.endAccess tag).endFetch.tableReported.closeAfterStop
          = (s.endAccess tag).endFetch.tableReported := State.closeAfterStop_of_open isOpen
      have rests : (s.endAccess tag).endFetch.tableReported.completeStop
          = (s.endAccess tag).endFetch.tableReported := State.completeStop_of_open closed
      rw [settled, stays, rests]
      refine ⟨State.closeEvent_cu _, ?_⟩
      have ec : (s.endAccess tag).endFetch.tableReported.ec =
          { s.ec with tableEmpty := s.allFree } := rfl
      generalize (s.endAccess tag).endFetch.tableReported = u at ec
      apply EngineControl.ext <;> simp [ec]
    · have may : (s.endAccess tag).endFetch.tableReported.mayIssue = true := by
        change s.mayIssue = true
        rcases stops with ⟨-, stop⟩ | ⟨stalled, -⟩
        · simp [State.mayIssue, stopping, stop]
        · rw [stalled] at stopping
          cases stopping
      have releases : (s.endAccess tag).endFetch.tableReported.closeAfterStop
          = (s.endAccess tag).endFetch.tableReported.release x :=
        (State.closeAfterStop_of_unreleased (s := (s.endAccess tag).endFetch.tableReported) batches
          retired anchor).trans (if_pos may)
      have rests : ((s.endAccess tag).endFetch.tableReported.release x).completeStop
          = (s.endAccess tag).endFetch.tableReported.release x :=
        State.completeStop_of_open
        ((congrArg EngineControl.chainClosed (State.release_ec _ x)).trans
          closed)
      have ec : (s.endAccess tag).endFetch.tableReported.ec =
          { s.ec with tableEmpty := s.allFree } := rfl
      have cu : (s.endAccess tag).endFetch.tableReported.cu = { s.cu with phase := .ended } := rfl
      rw [settled, releases, rests]
      generalize (s.endAccess tag).endFetch.tableReported = u at ec cu may
      refine ⟨(State.hasIssued_release may x).closeEvent, ?_, ?_⟩
      · rw [State.closeEvent_cu, State.release_cu_of_mayIssue may, cu]
        simp [anchor]
      · apply EngineControl.ext <;> simp [ec]
  case abandoned =>
    have abandons : (s.endAccess tag).abandoning =
        true := by simp [State.abandoning, stopping, abandon]
    have event : exec c s = .next (s.endAccess tag).settleStop.closeEvent := by
      rcases kinds with ⟨kind, rfl | rfl⟩ | ⟨kind, rfl | rfl⟩
      · exact (exec_linkArrival awaits kind link).trans (next_closeEvent (if_pos abandons))
      · refine (exec_chainAccessFault awaits (by rw [kind]; rfl)).trans
          (next_closeEvent ((if_pos abandons).trans ?_))
        rw [kind]
        rfl
      · exact (exec_headerArrival awaits kind d).trans (next_closeEvent (if_pos abandons))
      · refine (exec_chainAccessFault awaits (by rw [kind]; rfl)).trans
          (next_closeEvent ((if_pos abandons).trans ?_))
        rw [kind]
        rfl
    exact ⟨_, event, State.drainsAbandoned_settleStop stopping abandon⟩

end Sys2Proof.Machine
end


section
/-! A header arrives (R97, R98): the batch is taken, or refused. -/

namespace Sys2Proof.Machine

/-! ## The anchor's link is followed (R98, R105) -/

theorem State.followAnchor_of_none {s : State} (anchor : s.cu.anchor = none) : s.followAnchor =
    s := by
  simp only [State.followAnchor, anchor]

theorem State.followAnchor_of_open {s : State} {n : Anchor} (anchor : s.cu.anchor = some n)
    (isOpen : (s.openBatch n.addr).isSome = true) : s.followAnchor =
      s.updateBatch n.addr fun b => { b with linkFollowed := true } := by
  simp only [State.followAnchor, anchor, isOpen, if_true]

theorem State.followAnchor_of_retired {s : State} {n : Anchor} (anchor : s.cu.anchor = some n)
    (closed : s.openBatch n.addr = none) (retired : n.retired = true) :
    s.followAnchor = s.release n.addr := by
  simp [State.followAnchor, anchor, closed, retired]

/-- Following the anchor's link touches the batches, the anchor and the releases (R98, R105). -/
theorem State.followAnchor_cu {s : State} (may : s.mayIssue = true) : s.followAnchor.cu =
    { s.cu with
    batches := s.followAnchor.cu.batches, anchor := s.followAnchor.cu.anchor
    releases := s.followAnchor.cu.releases } := by
  unfold State.followAnchor
  split
  · split
    · rfl
    · split
      · rw [State.release_cu_of_mayIssue may]
      · rfl
  · rfl

theorem State.ChainActs.followAnchor (s : State) :
    s.ChainActs s.followAnchor AccessKind.isReleaseWrite := by
  unfold State.followAnchor
  split
  · split
    · exact State.ChainActs.withChain s _ _
    · split
      · exact State.ChainActs.release s _ rfl
      · exact State.ChainActs.refl s _
  · exact State.ChainActs.refl s _

/-! ## The batch is taken (R98) -/

/-- The entry of a batch that has just been taken. -/
def takenEntry (a : Addr) (d : Block64) : OpenBatch := ⟨a, field d 8 2, d.getLsbD 80, 0, 0, false⟩

/-- The Chain Unit that has taken the batch at `a` (R98). -/
def ChainUnit.taken (c : ChainUnit) (a : Addr) (d : Block64) : ChainUnit :=
  { c with
    phase := .taking, current := some a, nextAddr := none
    batches := c.batches ++ [takenEntry a d] }

theorem State.takeBatch_of_mayIssue {s : State} (may : s.mayIssue = true) (a : Addr) (d : Block64) :
    s.takeBatch a d = (s.followAnchor.withChain (s.followAnchor.cu.taken a d)).issueWrite
      .takenWrite
      (a + 26) takenBytes := by
  have ec : s.followAnchor.ec = s.ec := by simp
  have may' : (s.followAnchor.withChain (s.followAnchor.cu.taken a d)).mayIssue = true := by
    rw [State.mayIssue, State.withChain_ec, ec]
    exact may
  exact if_pos may'

theorem State.ChainActs.mono {s t : State} {p q : AccessKind → Bool} (h : s.ChainActs t p)
    (le : ∀ k, p k = true → q k = true) : s.ChainActs t q :=
  ⟨h.path, h.window, h.keeps, fun a mem new => (h.adds a mem new).imp id (le a.kind)⟩

theorem headerAccepted_iff (d : Block64) : headerAccepted d = true ↔
    field d 26 1 = 1 ∧ 1 ≤ field d 8 2 ∧ field d 8 2 ≤ 1024 := by
  rw [headerAccepted, Bool.and_eq_true, beq_iff_eq, inRange_iff_and]
  rfl

/-- A header of phase HEADER, outside STOP and ABANDON. -/
theorem State.headerArrived_of_goesOn {s : State} (goes : s.goesOn) (phase : s.cu.phase = .header)
    (a : Addr) (d : Block64) : s.headerArrived a d =
      if headerAccepted d then s.takeBatch a d else s.refuseBatch := by
  rw [State.headerArrived, State.abandoning_of_goesOn goes, State.stopInForce_of_goesOn goes, phase]
  rfl

theorem State.refuseBatch_eq (s : State) :
    s.refuseBatch = (s.withChain s.cu.refused).reportStall false true := rfl

theorem State.ChainActs.takeBatch {s : State} (may : s.mayIssue = true) (a : Addr) (d : Block64) :
    s.ChainActs (s.takeBatch a d) fun k => k == .takenWrite || k.isReleaseWrite := by
  rw [State.takeBatch_of_mayIssue may]
  refine ((State.ChainActs.followAnchor s).mono fun k h => ?_).trans
    ((State.ChainActs.withChain _ _ _).trans (State.ChainActs.issueWrite _ _ _ rfl))
  rw [h, Bool.or_true]

/-- Settles O23: the header is accepted, or the batch is refused. -/
theorem headerArrivalTakesOrRefuses : Obligations.HeaderArrivalTakesOrRefuses := by
  intro s tag a d awaits kind running phase
  have goes : (s.endAccess tag).goesOn := State.goesOn_of_running running
  have may : (s.endAccess tag).mayIssue = true := State.mayIssue_of_running running
  have event := exec_headerArrival awaits kind d
  rw [State.headerArrived_of_goesOn goes phase] at event
  by_cases accepted : headerAccepted d = true
  · rw [if_pos accepted] at event
    obtain ⟨state, least, most⟩ := (headerAccepted_iff d).mp accepted
    obtain ⟨ends, path, window, adds⟩ :=
      (State.ChainActs.takeBatch (s := s.endAccess tag) may a.addr d).close
    have followed := State.followAnchor_cu may
    have ec : (s.endAccess tag).followAnchor.ec = s.ec := by simp
    have batches := (s.endAccess tag).followAnchor_batches_length
    have cu : ((s.endAccess tag).takeBatch a.addr d).closeEvent.cu
        = (s.endAccess tag).followAnchor.cu.taken a.addr d := by
      rw [State.closeEvent_cu, State.takeBatch_of_mayIssue may]
      rfl
    have issues : ((s.endAccess tag).takeBatch a.addr d).closeEvent.hasIssued .takenWrite
        (a.addr + 26) 1
        [2] := by
      rw [State.takeBatch_of_mayIssue may]
      exact (State.hasIssued_issueWrite_of_length _ _ _ rfl).closeEvent
    have keeps : (s.endAccess tag).followAnchor.keepsAccesses
        ((s.endAccess tag).takeBatch a.addr d).closeEvent := by
      rw [State.takeBatch_of_mayIssue may]
      exact State.keepsAccesses.close (State.keepsAccesses_append (State.issueWrite_accesses
        ((s.endAccess tag).followAnchor.withChain _) _ _ _))
    have control : ((s.endAccess tag).takeBatch a.addr d).closeEvent.ec = { s.ec with
        status := ((s.endAccess tag).takeBatch a.addr d).closeEvent.ec.status } := by
      apply EngineControl.ext <;> simp
    refine ⟨_, event, ends, path, adds, window, fun _ _ _ =>
      ⟨?_, control, ?_, ?_, issues, fun none => ?_,
      fun n anchor retired closed => ?_, fun n anchor b mem addr => ?_⟩, fun refused => ?_⟩
    · rw [cu, ChainUnit.taken, followed]
      rfl
    · rw [cu]
      simp [ChainUnit.taken, takenEntry]
    · rw [cu]
      simp [ChainUnit.taken, batches]
    · rw [cu, State.followAnchor_of_none (s := s.endAccess tag) none]
      exact ⟨rfl, none⟩
    · have releases := State.followAnchor_of_retired (s := s.endAccess tag) anchor closed retired
      rw [releases] at keeps
      exact (State.hasIssued_release may n.addr).mono keeps
    · have isOpen : ((s.endAccess tag).openBatch n.addr).isSome = true := by
        rw [State.openBatch, List.find?_isSome]
        exact ⟨b, mem, by simp [addr]⟩
      rw [cu, State.followAnchor_of_open (s := s.endAccess tag) anchor isOpen]
      refine List.mem_append_left _ (List.mem_map.mpr ⟨b, mem, ?_⟩)
      rw [if_pos (by simp [addr])]
    · omega
  · rw [if_neg accepted, State.refuseBatch_eq] at event
    obtain ⟨ends, path, window, adds⟩ := ((State.ChainActs.withChain (s.endAccess tag) _ _).trans
      (State.ChainActs.reportStall ((s.endAccess tag).withChain (s.endAccess tag).cu.refused)
        false true
        fun k => k == .takenWrite || k.isReleaseWrite)).close
    obtain ⟨raises, ec⟩ := State.reportStall_closes (s := s)
      (u := (s.endAccess tag).withChain (s.endAccess tag).cu.refused) rfl running false true
    refine ⟨_, event, ends, path, adds, window, fun state least most =>
      absurd ((headerAccepted_iff d).mpr ⟨state, least, most⟩) accepted, fun _ =>
      ⟨?_, raises, ec.trans ?_⟩⟩
    · rw [State.closeEvent_cu, State.reportStall_cu]
      rfl
    · rw [Bool.or_false, Bool.or_true]

end Sys2Proof.Machine
end


section
/-! The end of a retirement write (R103, R104, R110). -/

namespace Sys2Proof.Machine

/-! ## The oldest batch has retired (R104) -/

/-- The state in which batch `b` has retired, before the report and the release. -/
def State.retiredAs (s : State) (b : OpenBatch) (rest : List OpenBatch) : State :=
  { s with
    cu := { s.cu with
      retireSeq := s.cu.retireSeq + 1, batches := rest, retirementOutstanding := false }
    ec := { s.ec with lastRetired := b.addr } }

/-- The cause that the retirement of `b` raises. -/
def OpenBatch.cause (b : OpenBatch) : BitVec 5 := if b.notify then causeRetire else 0

/-- The state in which the retirement of `b` has been reported. -/
def State.retiredReport (s : State) (b : OpenBatch) (rest : List OpenBatch) : State :=
  (s.retiredAs b rest).statusUpdate.raise b.cause

theorem State.retire_of_cons {s : State} {b : OpenBatch} {rest : List OpenBatch}
    (batches : s.cu.batches = b :: rest) :
    s.retire = (s.retiredReport b rest).releaseRetired b := by
  have retires : s.retire = (({ s with cu := { s.cu with
      retireSeq := s.cu.retireSeq + 1, batches := rest, retirementOutstanding := false } } :
        State).reportRetirement b).releaseRetired b := by
    simp only [State.retire, batches]
  rw [retires, State.reportRetirement, State.retiredReport, OpenBatch.cause]
  split
  · rfl
  · rw [State.raise_zero]
    rfl

section
variable (s : State) (b : OpenBatch) (rest : List OpenBatch)

@[simp] theorem State.retiredReport_cu : (s.retiredReport b rest).cu = { s.cu with
    retireSeq := s.cu.retireSeq + 1, batches := rest, retirementOutstanding := false } := by
  simp [State.retiredReport, State.retiredAs]

theorem State.retiredReport_ec : (s.retiredReport b rest).ec = { s.ec with
    lastRetired := b.addr, status := (s.retiredReport b rest).ec.status
    intCause := (s.retiredReport b rest).ec.intCause } := by
  apply EngineControl.ext <;> simp [State.retiredReport, State.retiredAs]

theorem State.ChainActs.retiredReport (p : AccessKind → Bool) :
    s.ChainActs (s.retiredReport b rest) p :=
  State.ChainActs.of_bi (by simp [State.retiredReport, State.retiredAs])
    (by simp [State.sameTablePath, State.retiredReport, State.retiredAs])
    (by simp [State.retiredReport, State.retiredAs])
    (by simp [State.retiredReport, State.retiredAs]) p

/-- What the report of a retirement leaves to the end of the event. -/
theorem State.raisesCause_retiredReport {w : State}
    (same : (s.retiredReport b rest).sameStatus w) (free : s.ec.engine ≠ .stalled) :
    s.raisesCause w.closeEvent b.cause :=
  State.raisesCause_of_same (u := s.retiredAs b rest) b.cause same rfl rfl rfl rfl rfl
    (fun h => free h.1)

end

/-! ## The release of the retired batch (R104, R105) -/

theorem State.releaseRetired_of_followed {s : State} {b : OpenBatch} (may : s.mayIssue = true)
    (followed : b.linkFollowed = true) : s.releaseRetired b = s.release b.addr := by
  have going : s.abandoning = false := by
    simp only [State.mayIssue, Bool.or_eq_true, Bool.and_eq_true, beq_iff_eq] at may
    rcases may with running | ⟨stopping, stop⟩ <;> simp [State.abandoning, *]
  simp [State.releaseRetired, followed, going]

theorem State.releaseRetired_of_unfollowed {s : State} {b : OpenBatch}
    (unfollowed : b.linkFollowed = false) : s.releaseRetired b = s.markAnchorRetired b.addr := by
  simp [State.releaseRetired, unfollowed]

theorem State.releaseRetired_cu {s : State} {b : OpenBatch} (may : s.mayIssue = true) :
    (s.releaseRetired b).cu = { s.cu with
      anchor := (s.releaseRetired b).cu.anchor, releases := (s.releaseRetired b).cu.releases } := by
  cases followed : b.linkFollowed
  · rw [State.releaseRetired_of_unfollowed followed]
    rfl
  · rw [State.releaseRetired_of_followed may followed, State.release_cu_of_mayIssue may]

theorem State.ChainActs.releaseRetired (s : State) (b : OpenBatch) :
    s.ChainActs (s.releaseRetired b) AccessKind.isReleaseWrite := by
  unfold State.releaseRetired
  split
  · split
    · exact State.ChainActs.refl s _
    · exact State.ChainActs.release s _ rfl
  · exact State.ChainActs.withChain s _ _

/-! ## What may follow (R97, R103) -/

/-- Accesses of other kinds, and a status write, leave none of this kind outstanding. -/
theorem State.outstanding_of_addsOnly {s t : State} {p q : AccessKind → Bool}
    (adds : s.addsOnly t q)
    (quiet : s.outstanding p = false) (status : p .statusWrite = false)
    (other : ∀ k, q k = true → p k = false) : t.outstanding p = false := by
  simp only [State.outstanding, List.any_eq_false, Bool.and_eq_true, not_and,
    Bool.not_eq_true] at quiet ⊢
  intro a mem live
  by_cases old : a ∈ s.bi.accesses
  · exact quiet a old live
  · rcases adds a mem old with kind | kind
    · rw [kind, status]
    · exact other _ kind

theorem State.readsHeader_of_addsOnly {s t : State} {q : AccessKind → Bool} (adds : s.addsOnly t q)
    (other : q .headerRead = false) (faulted : t.cu.faulted = s.cu.faulted)
    (quiet : s.readsHeader = false) : t.readsHeader = false := by
  simp only [State.readsHeader, Bool.or_eq_false_iff] at quiet ⊢
  obtain ⟨none, unfaulted⟩ := quiet
  refine ⟨State.outstanding_of_addsOnly adds none rfl fun k kind => ?_, by rw [faulted, unfaulted]⟩
  rw [beq_eq_false_iff_ne]
  rintro rfl
  rw [other] at kind
  cases kind

/-- With no misaligned address waiting a header is read or nothing happens. -/
theorem State.readHeader_of_all_aligned {s : State}
    (aligned : ∀ x, s.cu.nextAddr = some x → x.toNat % 64 = 0) :
    s.readHeader = s ∨ ∃ a, s.readHeader = s.issueRead .headerRead a 64 := by
  by_cases closed : s.cu.phase ≠ .header ∨ 8 ≤ s.cu.batches.length ∨ s.cu.nextAddr = none
  · exact .inl (State.readHeader_of_closed closed)
  · simp only [not_or, not_not, not_le] at closed
    obtain ⟨phase, few, some⟩ := closed
    obtain ⟨x, next⟩ := Option.ne_none_iff_exists'.mp some
    rw [State.readHeader_of_aligned phase few next ((aligned64_iff x).mpr (aligned x next))]
    split
    · exact .inr ⟨x, rfl⟩
    · exact .inl rfl

theorem State.beginRetirement_of_done {s : State} {b : OpenBatch} {rest : List OpenBatch}
    (batches : s.cu.batches = b :: rest) (done : b.doneCount = b.recordCount)
    (quiet : s.cu.retirementOutstanding = false) (may : s.mayIssue = true) :
    s.beginRetirement = (s.withChain { s.cu with retirementOutstanding := true }).issueWrite
      .retirementWrite (b.addr + 16) (retirementBytes (s.cu.retireSeq + 1) b.doneCount) := by
  simp [State.beginRetirement, batches, done, quiet, may, State.withChain]

theorem State.beginRetirement_cases (s : State) : s.beginRetirement = s
    ∨ ∃ addr data, s.beginRetirement = (s.withChain { s.cu with
        retirementOutstanding := true }).issueWrite .retirementWrite addr data := by
  unfold State.beginRetirement
  split
  · split
    · exact .inr ⟨_, _, rfl⟩
    · exact .inl rfl
  · exact .inl rfl

theorem State.beginRetirement_of_not_mayIssue {s : State} (may : s.mayIssue = false) :
    s.beginRetirement = s := by
  unfold State.beginRetirement
  split
  · rw [may, Bool.and_false]
    rfl
  · rfl

theorem State.beginRetirement_cu (s : State) : s.beginRetirement.cu = { s.cu with
    retirementOutstanding := s.beginRetirement.cu.retirementOutstanding } := by
  obtain same | ⟨_, _, issues⟩ := s.beginRetirement_cases
  · rw [same]
  · rw [issues]
    rfl

theorem State.ChainActs.beginRetirement (s : State) :
    s.ChainActs s.beginRetirement (· == .retirementWrite) := by
  obtain same | ⟨_, _, issues⟩ := s.beginRetirement_cases
  · rw [same]
    exact State.ChainActs.refl s _
  · rw [issues]
    exact (State.ChainActs.withChain s _ _).trans (State.ChainActs.issueWrite _ _ _ rfl)

end Sys2Proof.Machine
end


section
/-! The end of a retirement write (R103, R104, R110): the oldest batch retires. -/

namespace Sys2Proof.Machine

/-- Reading the next header changes neither the Engine Control nor the Chain Unit, while no
misaligned address waits (R97). -/
theorem State.readHeader_frame {s : State}
    (aligned : ∀ x, s.cu.nextAddr = some x → x.toNat % 64 = 0) :
    s.readHeader.ec = s.ec ∧ s.readHeader.cu = s.cu
      ∧ s.ChainActs s.readHeader (· == .headerRead) := by
  obtain same | ⟨a, reads⟩ := State.readHeader_of_all_aligned aligned
  · rw [same]
    exact ⟨rfl, rfl, State.ChainActs.refl s _⟩
  · rw [reads]
    exact ⟨rfl, rfl, State.ChainActs.issueRead s _ _ rfl⟩

theorem State.mayIssue_of_ec {s t : State} (ec : t.ec = s.ec) (may : s.mayIssue = true) :
    t.mayIssue = true := by
  rwa [State.mayIssue, ec]

theorem State.hasIssued_beginRetirement {s : State} {b : OpenBatch} {rest : List OpenBatch}
    (batches : s.cu.batches = b :: rest) (done : b.doneCount = b.recordCount)
    (quiet : s.cu.retirementOutstanding = false) (may : s.mayIssue = true) :
    s.beginRetirement.hasIssued .retirementWrite (b.addr + 16) 11
      (retirementBytes (s.cu.retireSeq + 1) b.doneCount) := by
  rw [State.beginRetirement_of_done batches done quiet may]
  exact State.hasIssued_issueWrite_of_length _ _ _ (retirementBytes_length _ _)

/-! ## RUNNING -/

/-- What the retirement of `b` leaves in RUNNING, before the next retirement begins. -/
structure State.Retires (s t : State) (b : OpenBatch) (rest : List OpenBatch) : Prop where
  ec : t.ec = (s.retiredReport b rest).ec
  cu : t.cu = { s.cu with
    retireSeq := s.cu.retireSeq + 1, batches := rest, retirementOutstanding := false
    anchor := t.cu.anchor, releases := t.cu.releases }
  acts : s.ChainActs t fun _ => true
  released : b.linkFollowed = true → t.hasIssued (.releaseWrite b.addr) (b.addr + 26) 1 [4]
  marked : b.linkFollowed = false → t.cu.releases = s.cu.releases
    ∧ ∀ n, s.cu.anchor = some n → n.addr = b.addr → t.cu.anchor = some { n with retired := true }
  header : ∀ x, s.cu.phase = .header → rest.length < 8 → s.cu.nextAddr = some x →
    s.readsHeader = false → t.hasIssued .headerRead x 64 []

/-- The report and the release (R104, R105). -/
theorem State.retire_frame {s : State} {b : OpenBatch} {rest : List OpenBatch}
    (batches : s.cu.batches = b :: rest) (may : s.mayIssue = true) :
    s.retire.ec = (s.retiredReport b rest).ec
      ∧ s.retire.cu = { s.cu with
          retireSeq := s.cu.retireSeq + 1, batches := rest, retirementOutstanding := false
          anchor := s.retire.cu.anchor, releases := s.retire.cu.releases }
      ∧ s.ChainActs s.retire AccessKind.isReleaseWrite := by
  have may' : (s.retiredReport b rest).mayIssue = true := by
    rw [State.mayIssue, State.retiredReport_ec]
    exact may
  rw [State.retire_of_cons batches]
  refine ⟨State.releaseRetired_ec _ b, (State.releaseRetired_cu may').trans ?_,
    (State.ChainActs.retiredReport s b rest _).trans (State.ChainActs.releaseRetired _ b)⟩
  rw [State.retiredReport_cu]

theorem State.retires_readHeader {s : State} {b : OpenBatch} {rest : List OpenBatch}
    (batches : s.cu.batches = b :: rest) (may : s.mayIssue = true)
    (aligned : ∀ x, s.cu.nextAddr = some x → x.toNat % 64 = 0) :
    s.Retires s.retire.readHeader b rest := by
  obtain ⟨ec, cu, acts⟩ := State.retire_frame batches may
  have next : s.retire.cu.nextAddr = s.cu.nextAddr := by rw [cu]
  obtain ⟨ec', cu', acts'⟩ := State.readHeader_frame (s := s.retire) (by rwa [next])
  have report : (s.retiredReport b rest).mayIssue = true := by
    rw [State.mayIssue, State.retiredReport_ec]
    exact may
  refine ⟨ec'.trans ec, by rw [cu']; exact cu,
    (acts.mono fun _ _ => rfl).trans (acts'.mono fun _ _ => rfl), fun followed => ?_,
    fun unfollowed => ?_, fun x phase room waits quiet => ?_⟩
  · refine State.hasIssued.mono ?_ acts'.keeps
    rw [State.retire_of_cons batches, State.releaseRetired_of_followed report followed]
    exact State.hasIssued_release report b.addr
  · rw [cu', State.retire_of_cons batches, State.releaseRetired_of_unfollowed unfollowed]
    refine ⟨by simp [State.markAnchorRetired], fun n anchor addr => ?_⟩
    simp [State.markAnchorRetired, anchor, addr]
  · have quiet' : s.retire.readsHeader = false :=
      State.readsHeader_of_addsOnly acts.adds rfl (by rw [cu]) quiet
    have may' : s.retire.mayIssue = true := State.mayIssue_of_ec ec report
    rw [State.readHeader_of_aligned (a := x) (by rw [cu]; exact phase) (by rw [cu]; exact room)
      (by rw [cu]; exact waits) ((aligned64_iff x).mpr (aligned x waits)), may', quiet']
    exact State.hasIssued_issueRead _ _ _ _

/-! ## ABANDON -/

/-- Under ABANDON the batch retires and nothing is issued (R110). -/
theorem State.retire_of_abandoning {s : State} {b : OpenBatch} {rest : List OpenBatch}
    (batches : s.cu.batches = b :: rest) (abandons : s.abandoning = true) :
    s.retire = (s.retiredReport b rest).withChain { (s.retiredReport b rest).cu with
      anchor := s.cu.anchor.map fun n =>
        if b.linkFollowed = false ∧ n.addr = b.addr then { n with retired := true } else n } := by
  have abandons' : (s.retiredReport b rest).abandoning = true := by
    rw [State.abandoning, State.retiredReport_ec]
    exact abandons
  rw [State.retire_of_cons batches]
  cases followed : b.linkFollowed
  · rw [State.releaseRetired_of_unfollowed followed]
    simp [State.markAnchorRetired, State.withChain]
  · have cu := State.retiredReport_cu s b rest
    simp only [State.releaseRetired, followed, abandons', if_true, Bool.true_eq_false, false_and,
      if_false, Option.map_id_fun', id]
    rw [cu]
    generalize s.retiredReport b rest = u at cu
    cases u
    cases cu
    rfl

/-- What an event under ABANDON does, of which the chain or the table still waits for an end. -/
theorem State.settleStop_of_waiting {u : State} (stopping : u.ec.engine = .stopping)
    (abandon : u.ec.ending = .abandon)
    (waits : ((u.cu.phase == .ended && !u.outstanding AccessKind.ofChain || u.ec.chainClosed)
      && u.allFree) = false) : u.sameStatus u.settleStop := by
  have settled := State.settleStop_of_abandoning stopping abandon
  generalize hc : (u.cu.phase == .ended && !u.outstanding AccessKind.ofChain) =
    closes at settled waits
  rw [settled, State.completeStop, if_neg]
  · exact ⟨rfl, rfl, rfl, rfl⟩
  · rw [Bool.and_assoc, Bool.and_comm u.allFree, waits, Bool.and_false]
    exact Bool.false_ne_true

/-- An event that raises `d` after it has raised `c` raises both (R171). -/
theorem State.raisesCause.after {s u t : State} {c d : BitVec 5} (h : u.raisesCause t d)
    (addr : u.ec.statusAddr = s.ec.statusAddr)
    (set : s.ec.statusAddr = none → u.ec.intCause = s.ec.intCause ||| c)
    (waiting : s.ec.statusAddr.isSome = true → u.ec.intCause = s.ec.intCause
      ∧ u.ec.status.waitingCauses = s.ec.status.waitingCauses ||| c)
    (attached : u.ec.status.attachedCauses = s.ec.status.attachedCauses)
    (outstanding : u.ec.status.outstanding = s.ec.status.outstanding) :
    s.raisesCause t (c ||| d) := by
  obtain ⟨unknown, known⟩ := h
  refine ⟨fun none => ?_, fun a some => ?_⟩
  · rw [unknown (addr.trans none), set none, BitVec.or_assoc]
  · obtain ⟨same, free, busy⟩ := known a (addr.trans some)
    obtain ⟨cause, waits⟩ := waiting (by rw [some]; rfl)
    rw [waits, BitVec.or_assoc, outstanding] at free busy
    rw [attached] at busy
    exact ⟨same.trans cause, free, busy⟩

end Sys2Proof.Machine
end


section
/-! The end of a retirement write (R103, R104, R110): the statement. -/

namespace Sys2Proof.Machine

/-- Under ABANDON nothing follows the retirement (R110). -/
theorem State.retirementWritten_of_abandoning {s : State} (abandons : s.abandoning = true)
    {b : OpenBatch} {rest : List OpenBatch} (batches : s.cu.batches = b :: rest)
    (phase : s.cu.phase = .ended) : s.retirementWritten = s.retire.settleStop := by
  have retired := State.retire_of_abandoning batches abandons
  have ec : s.retire.ec = { s.ec with 
      lastRetired := b.addr, status := s.retire.ec.status
      intCause := s.retire.ec.intCause } := by
    rw [retired]
    exact State.retiredReport_ec s b rest
  have silent : s.retire.mayIssue = false := by
    simp only [State.abandoning, Bool.and_eq_true, beq_iff_eq] at abandons
    rw [State.mayIssue, ec]
    simp [abandons]
  have ended : s.retire.cu.phase ≠ .header := by
    rw [retired, State.withChain_cu, State.retiredReport_cu]
    simp [phase]
  rw [State.retirementWritten, State.readHeader_of_closed (.inl ended),
    State.beginRetirement_of_not_mayIssue silent]

/-- The causes that the report of a retirement leaves. -/
theorem State.retiredReport_causes (s : State) (b : OpenBatch) (rest : List OpenBatch) :
    (s.ec.statusAddr = none →
        (s.retiredReport b rest).ec.intCause = s.ec.intCause ||| b.cause)
      ∧ (s.ec.statusAddr.isSome = true → (s.retiredReport b rest).ec.intCause = s.ec.intCause
        ∧ (s.retiredReport b rest).ec.status.waitingCauses
          = s.ec.status.waitingCauses ||| b.cause)
      ∧ (s.retiredReport b rest).ec.status.attachedCauses = s.ec.status.attachedCauses
      ∧ (s.retiredReport b rest).ec.status.outstanding = s.ec.status.outstanding := by
  refine ⟨fun none => ?_, fun known => ?_, by simp [State.retiredReport, State.retiredAs],
    by simp [State.retiredReport, State.retiredAs]⟩
  · simp [State.retiredReport, State.retiredAs, State.raise, State.statusUpdate, none]
  · simp [State.retiredReport, State.retiredAs, State.raise, State.statusUpdate, known]

theorem State.drainsAbandoned.intMask {u t : State} (h : u.drainsAbandoned t) :
    t.ec.intMask = u.ec.intMask := by
  obtain ⟨-, -, -, -, -, -, -, -, -, -, both, either⟩ := h
  cases closed : ((u.cu.phase == .ended && !u.outstanding AccessKind.ofChain || u.ec.chainClosed)
    && u.allFree)
  · rw [either closed]
  · rw [(both closed).2]

/-- Settles O30: in RUNNING the retirement and what may follow it, under ABANDON the retirement and
the drain. -/
theorem retirementCompletionRetiresTheOldest :
    Obligations.RetirementCompletionRetiresTheOldest := by
  refine ⟨fun s tag a b rest awaits kind running batches aligned => ?running,
    fun s tag a b rest awaits kind stopping abandon isOpen phase batches => ?abandoned⟩
  case running =>
    have may : (s.endAccess tag).mayIssue = true := State.mayIssue_of_running running
    have retires := State.retires_readHeader (s := s.endAccess tag) batches may aligned
    have event := exec_retirementWriteCompletion awaits kind
    have report := State.retiredReport_ec (s.endAccess tag) b rest
    have raises := State.raisesCause_retiredReport (s := s.endAccess tag) b rest
      (w := (s.endAccess tag).retire.readHeader.beginRetirement)
    rw [State.retirementWritten] at event
    have engine : (s.endAccess tag).retire.readHeader.ec.engine = .running := by
      rw [retires.ec, report]
      exact running
    generalize (s.endAccess tag).retire.readHeader = x at *
    have goes : x.beginRetirement.goesOn := State.goesOn_of_running
        (by rw [State.beginRetirement_ec, engine])
    rw [State.settleStop_of_goesOn goes] at event
    have begins := State.ChainActs.beginRetirement x
    obtain ⟨ends, path, window, -⟩ := (retires.acts.trans (begins.mono fun _ _ => rfl)).close
    have keeps : x.keepsAccesses x.beginRetirement.closeEvent :=
        State.keepsAccesses.close begins.keeps
    have cu : x.beginRetirement.closeEvent.cu = { x.cu with
        retirementOutstanding := x.beginRetirement.cu.retirementOutstanding } := by
      rw [State.closeEvent_cu]
      exact x.beginRetirement_cu
    refine ⟨_, event, ends, path, window, raises (State.sameStatus_of_ec ?_) (by simp [running]),
      ?_, ?_,
      fun followed => (retires.released followed).mono keeps, fun unfollowed => ?_,
      fun y phase room waits quiet => ?_, fun c rest' next done => ?_⟩
    · rw [State.beginRetirement_ec, retires.ec]
    · have ec : x.ec = ((s.endAccess tag).retiredReport b rest).ec := retires.ec
      generalize (s.endAccess tag).retiredReport b rest = r at report ec
      generalize r.ec.status = status at report
      generalize r.ec.intCause = causes at report
      apply EngineControl.ext <;> simp [ec, report]
    · rw [cu, retires.cu]
      rfl
    · rw [cu]
      exact retires.marked unfollowed
    · exact (retires.header y phase room waits (State.readsHeader_endAccess tag quiet)).mono keeps
    · have batches' : x.cu.batches = c :: rest' := by rw [retires.cu, next]
      have issues := State.hasIssued_beginRetirement batches' done (by rw [retires.cu])
        (State.mayIssue_of_running engine)
      have seq : x.cu.retireSeq + 1 = s.cu.retireSeq + 2 := by
        rw [retires.cu]
        exact BitVec.add_assoc s.cu.retireSeq 1 1
      rw [seq] at issues
      exact issues.closeEvent
  case abandoned =>
    intro causes
    have abandons : (s.endAccess tag).abandoning =
        true := by simp [State.abandoning, stopping, abandon]
    have event := exec_retirementWriteCompletion awaits kind
    have retired := State.retire_of_abandoning (s := s.endAccess tag) batches abandons
    have report := State.retiredReport_ec (s.endAccess tag) b rest
    have chain := State.retiredReport_cu (s.endAccess tag) b rest
    obtain ⟨unknown, known, attached, outstanding⟩ := State.retiredReport_causes (s.endAccess tag)
        b rest
    have acts := State.ChainActs.retiredReport (s.endAccess tag) b rest fun _ => false
    have raises := State.raisesCause_retiredReport (s := s.endAccess tag) b rest
      (w := (s.endAccess tag).retire.settleStop)
    rw [State.retirementWritten_of_abandoning abandons batches phase] at event
    have bi : ((s.endAccess tag).retiredReport b rest).bi = (s.endAccess tag).bi := by
      simp [State.retiredReport, State.retiredAs]
    have ec : (s.endAccess tag).retire.ec = ((s.endAccess tag).retiredReport b rest).ec := by
      rw [retired, State.withChain_ec]
    have cu := congrArg State.cu retired
    rw [State.withChain_cu, chain] at cu
    have acts' : (s.endAccess tag).ChainActs (s.endAccess tag).retire fun _ => false := by
      rw [retired]
      exact acts.trans (State.ChainActs.withChain _ _ _)
    have quiet : (s.endAccess tag).retire.outstanding AccessKind.ofChain
        = (s.endAccess tag).outstanding AccessKind.ofChain := by
      rw [retired, State.outstanding, State.withChain_bi, bi]
      rfl
    rw [← ec] at report unknown known attached outstanding
    have same : ∀ w, (s.endAccess tag).retire.sameStatus w →
        ((s.endAccess tag).retiredReport b rest).sameStatus w := fun w h => by
      rwa [State.sameStatus, ec] at h
    have free : (s.endAccess tag).retire.allFree = s.allFree := by
      rw [State.allFree, State.allFree]
      simp only [State.slot_of_rt acts'.path.1]
      rfl
    generalize (s.endAccess tag).retire = u at *
    have stops : u.ec.engine = .stopping := by rw [report]; exact stopping
    have ending : u.ec.ending = .abandon := by rw [report]; exact abandon
    have unclosed : u.ec.chainClosed = false := by rw [report]; exact isOpen
    have phase' : u.cu.phase = .ended := by rw [cu]; exact phase
    have window := (State.drainsAbandoned_settleStop stops ending).intMask
    have drains := State.drainsAbandoned_settleStop stops ending
    have waits := State.settleStop_of_waiting stops ending
    simp only [State.drainsAbandoned, phase', quiet, unclosed, free, beq_self_eq_true,
      Bool.true_and,
      Bool.or_false] at drains waits
    obtain ⟨rt, tl, bc, mc, pending, setupL, setupH, keeps, adds, chain', both, either⟩ := drains
    obtain ⟨⟨rt', tl', bc', mc'⟩, ⟨setupL', setupH', mask, pending'⟩, keeps', adds'⟩ := acts'
    refine ⟨_, event, State.keepsAccesses.ends (keeps'.trans keeps),
      ⟨rt.trans rt', tl.trans tl', bc.trans bc', mc.trans mc'⟩,
      ⟨setupL.trans setupL', setupH.trans setupH', ?_, pending.trans pending'⟩, ?_, fun busy => ?_,
      fun idle => ⟨?_, fun held => ?_, fun freed => ?_⟩⟩
    · exact window.trans mask
    · have new : u.addsOnly u.settleStop.closeEvent fun _ => false := fun x mem fresh =>
        .inl (adds x mem fresh)
      exact State.addsOnly_of_endAccess (adds'.trans new)
    · rw [busy] at waits either chain'
      refine ⟨raises (same _ (waits rfl)) (by simp [stopping]), ?_, chain'.trans cu⟩
      rw [either rfl, report]
      apply EngineControl.ext <;> simp [isOpen]
    · rw [idle] at chain'
      exact chain'.trans (by rw [cu]; rfl)
    · rw [idle, held] at waits either
      refine ⟨raises (same _ (waits rfl)) (by simp [stopping]), ?_⟩
      rw [either rfl, report]
      rfl
    · rw [idle, freed] at both
      obtain ⟨state, engine⟩ := both rfl
      refine ⟨state.after (by rw [report]; rfl) unknown known attached outstanding, ?_⟩
      exact engine.trans (by rw [report]; rfl)

end Sys2Proof.Machine
end


section
/-! Slots given to the records of the current batch, and their reads (R80, R93, R99). -/

namespace Sys2Proof.Machine

/-! ## One slot is given (R80) -/

theorem State.lowestFree_free {s : State} {k : SlotId} (h : s.lowestFree = some k) :
    (s.slot k).state = .free := by
  simpa using List.find?_some h

theorem State.giveOne_eq_some {s t : State} (h : s.giveOne = some t) :
    ∃ b k, s.lowestFree = some k ∧ t = s.giveSlot b k := by
  simp only [State.giveOne] at h
  split at h
  · obtain ⟨b, -, given⟩ := Option.bind_eq_some_iff.mp h
    split at given
    · obtain ⟨k, lowest, rfl⟩ := Option.map_eq_some_iff.mp given
      exact ⟨b, k, lowest, rfl⟩
    · cases given
  · cases h

theorem State.giveOne_of_current {s : State} {c : Addr} {b : OpenBatch}
    (phase : s.cu.phase = .records)
    (current : s.cu.current = some c) (isOpen : s.openBatch c = some b) : s.giveOne =
      if b.nextRecord < b.recordCount then s.lowestFree.map (s.giveSlot b) else none := by
  simp [State.giveOne, phase, current, isOpen]

theorem State.giveOne_of_phase {s : State} (phase : s.cu.phase ≠ .records) : s.giveOne = none :=
  if_neg (by simpa using phase)

/-- The batches once `n` more records of the batch at `a` have been given slots. -/
def countRecords (a : Addr) (n : Nat) (l : List OpenBatch) : List OpenBatch :=
  l.map fun e => if e.addr = a then { e with nextRecord := e.nextRecord + n } else e

theorem State.giveSlot_cu (s : State) (b : OpenBatch) (k : SlotId) : (s.giveSlot b k).cu =
    { s.cu with
    given := s.cu.given ++ [k], batches := countRecords b.addr 1 s.cu.batches } := by
  simp [State.giveSlot, State.updateBatch, countRecords, State.setSlot]

theorem State.giveSlot_age (s : State) (b : OpenBatch) (k : SlotId) :
    (s.giveSlot b k).rt = { s.rt with
      slots := (s.giveSlot b k).rt.slots, age := s.rt.age ++ [k] } := rfl

theorem State.slot_giveSlot_self (s : State) (b : OpenBatch) (k : SlotId) :
    (s.giveSlot b k).slot k = { Slot.empty with
      state := .fetching, batch := b.addr, index := b.nextRecord } :=
  State.slot_setSlot_self s k _

theorem State.slot_giveSlot_of_ne (s : State) (b : OpenBatch) {j k : SlotId} (other : j ≠ k) :
    (s.giveSlot b k).slot j = s.slot j :=
  State.slot_setSlot_of_ne s _ other

/-! ## What giving slots leaves alone -/

/-- What an open batch keeps while its records are given slots. -/
def OpenBatch.lasting (b : OpenBatch) : OpenBatch := { b with nextRecord := 0 }

theorem map_lasting_countRecords (a : Addr) (n : Nat) (l : List OpenBatch) :
    (countRecords a n l).map OpenBatch.lasting = l.map OpenBatch.lasting := by
  rw [countRecords, List.map_map]
  refine List.map_congr_left fun e _ => ?_
  simp only [Function.comp_apply]
  split <;> rfl

/-- A slot that is not FREE stays as it was, and so does all of a batch but its next record. -/
theorem State.giveSlots_keeps (n : Nat) (s : State) :
    (∀ j, (s.slot j).state ≠ .free → (State.giveSlots n s).slot j = s.slot j)
      ∧ (State.giveSlots n s).cu.batches.map OpenBatch.lasting
        = s.cu.batches.map OpenBatch.lasting
      ∧ (State.giveSlots n s).cu.retireSeq = s.cu.retireSeq
      ∧ (State.giveSlots n s).rt.hold = s.rt.hold := by
  induction n generalizing s with
  | zero => exact ⟨fun _ _ => rfl, rfl, rfl, rfl⟩
  | succ n ih =>
    rcases given : s.giveOne with _ | t
    · rw [State.giveSlots, given]
      exact ⟨fun _ _ => rfl, rfl, rfl, rfl⟩
    · obtain ⟨b, k, lowest, rfl⟩ := State.giveOne_eq_some given
      obtain ⟨slots, batches, seq, hold⟩ := ih (s.giveSlot b k)
      rw [State.giveSlots, given]
      refine ⟨fun j taken => ?_, batches.trans ?_, seq, hold⟩
      · have other : j ≠ k := fun same => taken (same ▸ State.lowestFree_free lowest)
        have still := State.slot_giveSlot_of_ne s b other
        exact (slots j (by rwa [still])).trans still
      · rw [State.giveSlot_cu]
        exact map_lasting_countRecords _ _ _

theorem State.giveSlots_of_phase {s : State} (phase : s.cu.phase ≠ .records) (n : Nat) :
    State.giveSlots n s = s := by
  cases n
  · rfl
  · rw [State.giveSlots, State.giveOne_of_phase phase]

/-! ## The reads (R93, R99) -/

/-- The accesses that the given slots and the batch after them issue. -/
def AccessKind.ofRecords (k : AccessKind) : Bool := k.isRecordRead || k == .linkRead

theorem State.ChainActs.afterLastRecord (s : State) (a : Addr) :
    s.ChainActs (s.afterLastRecord a) AccessKind.ofRecords := by
  unfold State.afterLastRecord
  split
  · exact State.ChainActs.withChain s _ _
  · exact (State.ChainActs.withChain s _ _).trans (State.ChainActs.issueRead _ _ _ rfl)

theorem State.afterLastRecord_batches (s : State) (a : Addr) :
    (s.afterLastRecord a).cu.batches = s.cu.batches
      ∧ (s.afterLastRecord a).cu.retireSeq = s.cu.retireSeq := by
  unfold State.afterLastRecord
  split
  · exact ⟨rfl, rfl⟩
  · exact ⟨rfl, rfl⟩

theorem State.ChainActs.issueRecordRead (s : State) (k : SlotId) :
    s.ChainActs (s.issueRecordRead k) AccessKind.ofRecords := by
  have reads : s.ChainActs (s.issueRead (.recordRead k)
      (recordAddr (s.slot k).batch (s.slot k).index) 64) AccessKind.ofRecords :=
    State.ChainActs.issueRead s _ _ rfl
  simp only [State.issueRecordRead]
  split
  · split
    · exact reads.trans (State.ChainActs.afterLastRecord _ _)
    · exact reads
  · exact reads

theorem State.issueRecordRead_batches (s : State) (k : SlotId) :
    (s.issueRecordRead k).cu.batches = s.cu.batches
      ∧ (s.issueRecordRead k).cu.retireSeq = s.cu.retireSeq := by
  simp only [State.issueRecordRead]
  split
  · split
    · exact State.afterLastRecord_batches _ _
    · exact ⟨rfl, rfl⟩
  · exact ⟨rfl, rfl⟩

theorem State.foldl_issueRecordRead (l : List SlotId) (s : State) :
    s.ChainActs (l.foldl State.issueRecordRead s) AccessKind.ofRecords
      ∧ (l.foldl State.issueRecordRead s).cu.batches = s.cu.batches
      ∧ (l.foldl State.issueRecordRead s).cu.retireSeq = s.cu.retireSeq := by
  induction l generalizing s with
  | nil => exact ⟨State.ChainActs.refl s _, rfl, rfl⟩
  | cons k l ih =>
    obtain ⟨acts, batches, seq⟩ := ih (s.issueRecordRead k)
    obtain ⟨batches', seq'⟩ := State.issueRecordRead_batches s k
    exact ⟨(State.ChainActs.issueRecordRead s k).trans acts, batches.trans batches', seq.trans seq'⟩

theorem State.issueGiven_acts (s : State) : s.ChainActs s.issueGiven AccessKind.ofRecords
    ∧ s.issueGiven.cu.batches = s.cu.batches ∧ s.issueGiven.cu.retireSeq = s.cu.retireSeq := by
  unfold State.issueGiven
  split
  · obtain ⟨acts, kept⟩ := State.foldl_issueRecordRead s.cu.given
      { s with cu := { s.cu with given := [] } }
    exact ⟨(State.ChainActs.withChain s _ _).trans acts, kept⟩
  · exact ⟨State.ChainActs.refl s _, rfl, rfl⟩

theorem State.issueGiven_of_none {s : State} (none : s.cu.given = []) : s.issueGiven = s := by
  unfold State.issueGiven
  split
  · rw [none, List.foldl_nil, ← none]
  · rfl

/-- Outside phase RECORDS, with no read waiting, no record is read. -/
theorem State.readRecords_of_phase {s : State} (phase : s.cu.phase ≠ .records)
    (none : s.cu.given = []) :
    s.readRecords = s := by
  rw [State.readRecords, State.giveSlots_of_phase phase, State.issueGiven_of_none none]

/-- What the record reads of phase RECORDS keep. -/
theorem State.readRecords_keeps (s : State) : s.sameWindow s.readRecords
    ∧ s.keepsAccesses s.readRecords
    ∧ s.readRecords.cu.batches.map OpenBatch.lasting = s.cu.batches.map OpenBatch.lasting
    ∧ (∀ j, (s.slot j).state ≠ .free → s.readRecords.slot j = s.slot j)
    ∧ s.readRecords.cu.retireSeq = s.cu.retireSeq ∧ s.readRecords.rt.hold = s.rt.hold := by
  obtain ⟨acts, batches, seq⟩ := (State.giveSlots 64 s).issueGiven_acts
  obtain ⟨slots, lasting, seq', hold⟩ := State.giveSlots_keeps 64 s
  obtain ⟨setupL, setupH, mask, pending⟩ := acts.window
  refine ⟨⟨?_, ?_, ?_, ?_⟩, ?_, (congrArg _ batches).trans lasting,
    fun j taken => (State.slot_of_rt acts.path.1 j).trans (slots j taken), seq.trans seq',
    (congrArg RequestTable.hold acts.path.1).trans hold⟩
  · exact setupL.trans (by rw [State.giveSlots_bi])
  · exact setupH.trans (by rw [State.giveSlots_bi])
  · exact mask.trans (by rw [State.giveSlots_ec])
  · exact pending.trans (State.giveSlots_pending 64 s)
  · have keeps := acts.keeps
    rwa [State.keepsAccesses, State.giveSlots_bi] at keeps

end Sys2Proof.Machine
end


section
/-! The end of a result write (R88, R99, R103): the answer is counted. -/

namespace Sys2Proof.Machine

/-- The counters once the answer that slot `x` held has been counted (R88). -/
def Counters.answered (c : Counters) (x : Slot) : Counters :=
  { c with
    requestsCompleted := c.requestsCompleted + 1
    lookupsFound := c.lookupsFound + if x.request.map Request.kind = some .lookup
      ∧ x.result.map Result.code = some .found then 1 else 0 }

/-- The batches once an answer of the batch at `a` has been counted. -/
def countDone (a : Addr) (l : List OpenBatch) : List OpenBatch :=
  l.map fun b => if b.addr = a then { b with doneCount := b.doneCount + 1 } else b

theorem State.countAnswer_cu (s : State) (x : Slot) : (s.countAnswer x).cu = { s.cu with
    batches := countDone x.batch s.cu.batches } := by
  simp [State.countAnswer, State.updateBatch, State.count, countDone]

theorem State.countAnswer_ec (s : State) (x : Slot) : (s.countAnswer x).ec = { s.ec with
    counters := s.ec.counters.answered x } := by
  simp only [State.countAnswer, State.count, Counters.answered, Bool.and_eq_true, beq_iff_eq]
  split
  · rfl
  · simp only [BitVec.ofNat_eq_ofNat, BitVec.add_zero]
    rfl

/-- A batch of a list is found again where only next records have changed. -/
theorem exists_lasting_eq {l m : List OpenBatch}
    (h : m.map OpenBatch.lasting = l.map OpenBatch.lasting) {b : OpenBatch} (mem : b ∈ l) :
    ∃ b' ∈ m, b'.lasting = b.lasting := by
  have image : b.lasting ∈ m.map OpenBatch.lasting := h ▸ List.mem_map_of_mem mem
  exact List.mem_map.mp image

/-- The state whose answer has been counted, its slot FREE (R80, R88). -/
def State.answerCounted (s : State) (k : SlotId) : State := (s.freeSlot k).countAnswer (s.slot k)

section
variable (s : State) (k : SlotId)

theorem State.answerCounted_ec : (s.answerCounted k).ec = { s.ec with
    counters := s.ec.counters.answered (s.slot k) } :=
  State.countAnswer_ec _ _

theorem State.answerCounted_cu : (s.answerCounted k).cu = { s.cu with
    given := s.cu.given.filter (· != k), batches := countDone (s.slot k).batch s.cu.batches } :=
  State.countAnswer_cu _ _

theorem State.answerCounted_rt : (s.answerCounted k).rt = (s.freeSlot k).rt :=
  State.countAnswer_rt _ _

theorem State.answerCounted_bi : (s.answerCounted k).bi = s.bi :=
  State.countAnswer_bi _ _

theorem State.slot_freeSlot_self : (s.freeSlot k).slot k = Slot.empty :=
  State.slot_setSlot_self s k _

theorem State.slot_freeSlot_of_ne {j : SlotId} (other : j ≠ k) : (s.freeSlot k).slot j = s.slot j :=
  State.slot_setSlot_of_ne s _ other

end

/-- The end of a result write in RUNNING. -/
theorem State.resultWritten_of_goesOn {s : State} (goes : s.goesOn) (k : SlotId) : s.resultWritten k
    = (s.answerCounted k).readRecords.beginRetirement := by
  have ec : (s.answerCounted k).readRecords.beginRetirement.ec = (s.answerCounted k).ec := by simp
  have goes' : (s.answerCounted k).readRecords.beginRetirement.goesOn := by
    rw [State.goesOn, ec, State.answerCounted_ec]
    exact goes
  have run : s.resultWritten k = (s.answerCounted k).readRecords.beginRetirement.settleStop :=
    if_neg (by rw [State.abandoning_of_goesOn goes]; exact Bool.false_ne_true)
  rw [run, State.settleStop_of_goesOn goes']

/-- Settles O29, the answer counted first and the record reads by what they keep. -/
theorem resultWriteCompletionCountsTheAnswer :
    Obligations.ResultWriteCompletionCountsTheAnswer := by
  intro s tag a k awaits kind running
  have event := exec_resultWriteCompletion awaits kind
  rw [State.resultWritten_of_goesOn (s := s.endAccess tag)
    (State.goesOn_of_running running)] at event
  have ec := (s.endAccess tag).answerCounted_ec k
  have cu := (s.endAccess tag).answerCounted_cu k
  have bi := (s.endAccess tag).answerCounted_bi k
  have rt := (s.endAccess tag).answerCounted_rt k
  have path : ((s.endAccess tag).answerCounted k).tl = s.tl ∧
      ((s.endAccess tag).answerCounted k).bc = s.bc
      ∧ ((s.endAccess tag).answerCounted k).mc = s.mc := by
    simp [State.answerCounted]
  have pending : ((s.endAccess tag).answerCounted k).pending = s.pending := by
    simp [State.answerCounted]
  have freed := (s.endAccess tag).slot_freeSlot_self k
  have others : ∀ j, j ≠ k → ((s.endAccess tag).freeSlot k).slot j = s.slot j :=
    fun j other => State.slot_freeSlot_of_ne (s.endAccess tag) k other
  generalize (s.endAccess tag).answerCounted k = v at *
  obtain ⟨tl, bc, mc⟩ := path
  obtain ⟨⟨setupL, setupH, mask, rest⟩, keeps, lasting, slots, seq, hold⟩ := v.readRecords_keeps
  have begins := State.ChainActs.beginRetirement v.readRecords
  have chain := v.readRecords.beginRetirement_cu
  have batches : v.readRecords.beginRetirement.closeEvent.cu.batches.map OpenBatch.lasting
      = (countDone (s.slot k).batch s.cu.batches).map OpenBatch.lasting := by
    rw [State.closeEvent_cu, chain]
    refine lasting.trans ?_
    rw [cu]
    rfl
  have same : ∀ j, v.readRecords.beginRetirement.closeEvent.slot j = v.readRecords.slot j :=
    State.slot_of_rt ((State.closeEvent_rt _).trans begins.path.1)
  have quiet : s.cu.phase ≠ .records → s.cu.given = [] → v.readRecords = v := fun phase none =>
    State.readRecords_of_phase (by rw [cu]; exact phase)
      (by rw [cu]; exact (congrArg (List.filter _) none).trans rfl)
  have state : ∀ j, v.slot j = ((s.endAccess tag).freeSlot k).slot j := State.slot_of_rt rt
  refine ⟨_, event, State.endsAccess.close (State.keepsAccesses.ends ?_),
    State.sameWindow.close ?_, ?_,
    ?_, fun b mem => ?_, fun j other taken => ?_, fun phase none => ⟨?_, fun j other => ?_, ?_⟩,
    fun b rest' oldest phase none unretired addr last => ?_,
    ?_, ?_, ?_, ?_, ?_⟩
  · have all := keeps.trans begins.keeps
    rwa [State.keepsAccesses, bi] at all
  · obtain ⟨setupL', setupH', mask', rest'⟩ := begins.window
    refine ⟨setupL'.trans (setupL.trans ?_), setupH'.trans (setupH.trans ?_),
      mask'.trans (mask.trans ?_),
      rest'.trans (rest.trans pending)⟩
    · rw [bi]
      rfl
    · rw [bi]
      rfl
    · rw [ec]
      rfl
  · have control : v.readRecords.beginRetirement.ec = v.ec := by simp
    apply EngineControl.ext
    case counters =>
      rw [State.closeEvent_ec_counters, control, ec]
      rfl
    all_goals simp [ec]
  · have length := congrArg List.length batches
    simpa [countDone] using length
  · obtain ⟨b', mem', last⟩ := exists_lasting_eq batches (List.mem_map_of_mem mem)
    refine ⟨b', mem', ?_⟩
    by_cases its : b.addr = (s.slot k).batch
    all_goals
      simp only [OpenBatch.lasting, if_pos, if_neg, its, OpenBatch.mk.injEq,
        not_false_iff] at last ⊢
      obtain ⟨addr, records, notify, -, done, followed⟩ := last
      exact ⟨addr, records, notify, followed, done⟩
  · rw [same, slots j (by rw [state, others j other]; exact taken), state, others j other]
  · rw [same, quiet phase none, state]
    exact freed
  · rw [same, quiet phase none, state, others j other]
  · rw [State.closeEvent_rt, begins.path.1, quiet phase none, rt]
    rfl
  · rw [quiet phase none]
    have counted : v.cu.batches = { b with doneCount := b.doneCount + 1 }
        :: countDone (s.slot k).batch rest' := by
      rw [cu]
      change countDone (s.slot k).batch s.cu.batches = _
      rw [oldest, countDone, List.map_cons, if_pos addr]
      rfl
    have may : v.mayIssue = true := State.mayIssue_of_running (by rw [ec]; exact running)
    have seq : v.cu.retireSeq = s.cu.retireSeq := by
      rw [cu]
      rfl
    have issues := State.hasIssued_beginRetirement counted last (by rw [cu]; exact unretired) may
    rw [seq] at issues
    refine ⟨?_, last ▸ issues.closeEvent⟩
    rw [State.closeEvent_cu, State.beginRetirement_of_done counted last
      (by rw [cu]; exact unretired) may]
    rfl
  · rw [State.closeEvent_cu, chain]
    refine seq.trans ?_
    rw [cu]
    rfl
  · rw [State.closeEvent_rt, begins.path.1, hold, rt]
    rfl
  · simpa using tl
  · simpa using bc
  · simpa using mc

end Sys2Proof.Machine
end


section
/-! The TAKEN write completes (R80, R93, R99): slots are given to the records, in order, and read.
-/

namespace Sys2Proof.Machine

/-! ## The slots that are given (R80) -/

/-- The FREE slots, lowest number first. -/
def State.freeSlots (s : State) : List SlotId :=
  (List.finRange 64).filter fun k => (s.slot k).state == .free

theorem State.nodup_freeSlots (s : State) : s.freeSlots.Nodup :=
  (List.nodup_finRange 64).filter _

theorem State.length_freeSlots_le (s : State) : s.freeSlots.length ≤ 64 :=
  (List.length_filter_le _ _).trans (List.length_finRange).le

theorem State.lowestFree_eq (s : State) : s.lowestFree = s.freeSlots.head? :=
  List.head?_filter.symm

/-- The slots of this list given, in order, to the records of batch `b` from its next one on. -/
def State.giveAll (s : State) (b : OpenBatch) : List SlotId → State
  | [] => s
  | k :: ks => (s.giveSlot b k).giveAll { b with nextRecord := b.nextRecord + 1 } ks

theorem State.openBatch_addr {s : State} {c : Addr} {b : OpenBatch} (h : s.openBatch c = some b) :
    b.addr = c := by
  simpa using List.find?_some h

theorem find_countRecords (a : Addr) (n : Nat) (l : List OpenBatch) :
    (countRecords a n l).find? (fun b => b.addr == a)
      = (l.find? fun b => b.addr == a).map fun b => { b with nextRecord := b.nextRecord + n } := by
  have same : ((fun b : OpenBatch => b.addr == a) ∘ fun e =>
      if e.addr = a then { e with nextRecord := e.nextRecord + n } else e) = fun b =>
      b.addr == a := by
    funext e
    simp only [Function.comp_apply]
    split <;> rfl
  rw [countRecords, List.find?_map, same]
  rcases found : l.find? (fun b => b.addr == a) with _ | b
  · rw [found]
    rfl
  · have addr : b.addr = a := by simpa using List.find?_some found
    simp [found, addr]

theorem countRecords_countRecords (a : Addr) (m n : Nat) (l : List OpenBatch) :
    countRecords a n (countRecords a m l) = countRecords a (m + n) l := by
  rw [countRecords, countRecords, List.map_map]
  refine List.map_congr_left fun e _ => ?_
  by_cases addr : e.addr = a
  · simp [addr, Nat.add_assoc]
  · simp [addr]

theorem countRecords_zero (a : Addr) (l : List OpenBatch) : countRecords a 0 l = l := by
  simp [countRecords]

theorem State.freeSlots_giveSlot {s : State} (b : OpenBatch) {k : SlotId} {rest : List SlotId}
    (h : s.freeSlots = k :: rest) : (s.giveSlot b k).freeSlots = rest := by
  have distinct : k ∉ rest := by
    have nodup := s.nodup_freeSlots
    rw [h] at nodup
    exact (List.nodup_cons.mp nodup).1
  have others : (s.giveSlot b k).freeSlots = s.freeSlots.filter (· != k) := by
    rw [State.freeSlots, State.freeSlots, List.filter_filter]
    refine List.filter_congr fun j _ => ?_
    by_cases same : j = k
    · subst same
      rw [State.slot_giveSlot_self]
      simp
    · rw [State.slot_giveSlot_of_ne s b same]
      simp [same]
  rw [others, h, List.filter_cons_of_neg (by simp), List.filter_eq_self]
  intro j mem
  simpa using fun same : j = k => distinct (same ▸ mem)

/-- While the phase is RECORDS slots are given as long as records and FREE slots last. -/
theorem State.giveSlots_eq (n : Nat) {s : State} {c : Addr} {b : OpenBatch}
    (phase : s.cu.phase = .records) (current : s.cu.current = some c)
      (isOpen : s.openBatch c = some b) :
    State.giveSlots n s =
      s.giveAll b (s.freeSlots.take (min n (b.recordCount - b.nextRecord))) := by
  induction n generalizing s b with
  | zero => simp [State.giveSlots, State.giveAll]
  | succ n ih =>
    have given := State.giveOne_of_current phase current isOpen
    rw [State.giveSlots]
    by_cases more : b.nextRecord < b.recordCount
    · rw [if_pos more, s.lowestFree_eq] at given
      rcases free : s.freeSlots with _ | ⟨k, rest⟩
      · rw [free] at given
        simp [given, State.giveAll]
      · rw [free] at given
        have addr := State.openBatch_addr isOpen
        have isOpen' : (s.giveSlot b k).openBatch c
            = some { b with nextRecord := b.nextRecord + 1 } := by
          rw [State.openBatch, State.giveSlot_cu, addr, find_countRecords]
          rw [State.openBatch] at isOpen
          rw [isOpen, Option.map_some, addr]
        have count : min (n + 1) (b.recordCount - b.nextRecord)
            = min n (b.recordCount - (b.nextRecord + 1)) + 1 := by omega
        rw [given, count, List.take_succ_cons, State.giveAll]
        have next := ih (s := s.giveSlot b k) (by rw [State.giveSlot_cu]; exact phase)
          (by rw [State.giveSlot_cu]; exact current) isOpen'
        rw [State.freeSlots_giveSlot b free] at next
        exact next
    · rw [if_neg more] at given
      have none : b.recordCount - b.nextRecord = 0 := by omega
      simp [given, none, State.giveAll]

/-! ## What the slots given hold (R80, R81) -/

theorem State.giveAll_cu (ks : List SlotId) (s : State) (b : OpenBatch) : (s.giveAll b ks).cu =
    { s.cu with
    given := s.cu.given ++ ks, batches := countRecords b.addr ks.length s.cu.batches } := by
  induction ks generalizing s b with
  | nil => simp [State.giveAll, countRecords_zero]
  | cons k ks ih =>
    rw [State.giveAll, ih, State.giveSlot_cu, countRecords_countRecords]
    simp [Nat.add_comm]

theorem State.giveAll_rt (ks : List SlotId) (s : State) (b : OpenBatch) : (s.giveAll b ks).rt =
    { s.rt with
    slots := (s.giveAll b ks).rt.slots, age := s.rt.age ++ ks } := by
  induction ks generalizing s b with
  | nil => simp [State.giveAll]
  | cons k ks ih =>
    rw [State.giveAll, ih, State.giveSlot_age]
    simp

theorem State.slot_giveAll_of_not_mem (ks : List SlotId) (s : State) (b : OpenBatch) {j : SlotId}
    (h : j ∉ ks) : (s.giveAll b ks).slot j = s.slot j := by
  induction ks generalizing s b with
  | nil => rfl
  | cons k ks ih =>
    obtain ⟨other, rest⟩ := not_or.mp (mt List.mem_cons.mpr h)
    rw [State.giveAll, ih _ _ rest, State.slot_giveSlot_of_ne s b other]

theorem State.slot_giveAll (ks : List SlotId) (nodup : ks.Nodup) (s : State) (b : OpenBatch)
    {i : Nat}
    {k : SlotId} (h : ks[i]? = some k) : (s.giveAll b ks).slot k = { Slot.empty with
      state := .fetching, batch := b.addr, index := b.nextRecord + i } := by
  induction ks generalizing s b i with
  | nil => cases h
  | cons j ks ih =>
    obtain ⟨fresh, nodup'⟩ := List.nodup_cons.mp nodup
    rw [State.giveAll]
    cases i with
    | zero =>
      obtain rfl : j = k := by simpa using h
      rw [State.slot_giveAll_of_not_mem _ _ _ fresh]
      exact State.slot_giveSlot_self s b j
    | succ i =>
      rw [ih nodup' _ _ (by simpa using h)]
      simp [Nat.add_comm, Nat.add_left_comm]

/-! ## The reads of the slots given (R93, R99) -/

/-- The read of the record of slot `k` (R93). -/
def State.readSlot (s : State) (k : SlotId) : State :=
  s.issueRead (.recordRead k) (recordAddr (s.slot k).batch (s.slot k).index) 64

/-- What reading the records of these slots does. -/
theorem State.foldl_readSlot (ks : List SlotId) (s : State) :
    s.ChainActs (ks.foldl State.readSlot s) AccessKind.isRecordRead
      ∧ (ks.foldl State.readSlot s).ec = s.ec ∧ (ks.foldl State.readSlot s).cu = s.cu
      ∧ ∀ k ∈ ks, (ks.foldl State.readSlot s).hasIssued (.recordRead k)
        (recordAddr (s.slot k).batch (s.slot k).index) 64 [] := by
  induction ks generalizing s with
  | nil => exact ⟨State.ChainActs.refl s _, rfl, rfl, fun k mem => by cases mem⟩
  | cons j ks ih =>
    obtain ⟨acts, ec, cu, issued⟩ := ih (s.readSlot j)
    refine ⟨(State.ChainActs.issueRead s _ _ rfl).trans acts, ec, cu, fun k mem => ?_⟩
    rcases List.mem_cons.mp mem with rfl | mem
    · exact State.hasIssued.mono (State.hasIssued_issueRead _ _ _ _) acts.keeps
    · exact issued k mem

theorem State.issueRecordRead_of_more {s : State} {k : SlotId} {b : OpenBatch}
    (isOpen : s.openBatch (s.slot k).batch = some b) (more : (s.slot k).index + 1 ≠ b.recordCount) :
    s.issueRecordRead k = s.readSlot k := by
  simp only [State.issueRecordRead, isOpen, if_neg more]
  rfl

theorem State.issueRecordRead_of_last {s : State} {k : SlotId} {b : OpenBatch}
    (isOpen : s.openBatch (s.slot k).batch = some b) (last : (s.slot k).index + 1 = b.recordCount) :
    s.issueRecordRead k = (s.readSlot k).afterLastRecord (s.slot k).batch := by
  simp only [State.issueRecordRead, isOpen, if_pos last]
  rfl

/-- Before the last record there are reads alone. -/
theorem State.foldl_issueRecordRead_of_more (ks : List SlotId) {s : State} {b : OpenBatch}
    (more : ∀ k ∈ ks, s.openBatch (s.slot k).batch = some b ∧
      (s.slot k).index + 1 ≠ b.recordCount) :
    ks.foldl State.issueRecordRead s = ks.foldl State.readSlot s := by
  induction ks generalizing s with
  | nil => rfl
  | cons j ks ih =>
    obtain ⟨isOpen, index⟩ := more j List.mem_cons_self
    rw [List.foldl_cons, List.foldl_cons, State.issueRecordRead_of_more isOpen index]
    exact ih fun k mem => more k (List.mem_cons_of_mem _ mem)

end Sys2Proof.Machine
end


section
/-! The TAKEN write completes (R98, R99): the statement. -/

namespace Sys2Proof.Machine

/-- The state in which phase RECORDS begins and slots have been given to `ks` of its records. -/
def State.recordsBegun (s : State) (b : OpenBatch) (ks : List SlotId) : State :=
  (s.withChain { s.cu with phase := .records }).giveAll b ks

/-- The state in which the reads of the slots `ks` have issued. -/
def State.recordsRead (s : State) (b : OpenBatch) (ks : List SlotId) : State :=
  ks.foldl State.readSlot ((s.recordsBegun b ks).withChain
    { (s.recordsBegun b ks).cu with given := [] })

/-- What the slots and reads of the records that can be read leave, before the link is read. -/
structure State.ReadsRecords (s t : State) (c : Addr) (b : OpenBatch) (ks : List SlotId) :
  Prop where
  ec : t.ec = s.ec
  tl : t.tl = s.tl
  bc : t.bc = s.bc
  mc : t.mc = s.mc
  window : s.sameWindow t
  keeps : s.keepsAccesses t
  adds : s.addsOnly t AccessKind.isRecordRead
  cu : t.cu = { s.cu with
    phase := .records, given := [], batches := countRecords c ks.length s.cu.batches }
  rt : t.rt = { s.rt with slots := t.rt.slots, age := s.rt.age ++ ks }
  others : ∀ k, k ∉ ks → t.slot k = s.slot k
  slots : ∀ (i : Nat) k, ks[i]? = some k → t.slot k = { Slot.empty with
      state := .fetching, batch := c, index := b.nextRecord + i }
    ∧ t.hasIssued (.recordRead k) (recordAddr c (b.nextRecord + i)) 64 []

theorem State.giveAll_frame (ks : List SlotId) (s : State) (b : OpenBatch) :
    (s.giveAll b ks).bi = s.bi ∧ (s.giveAll b ks).ec = s.ec ∧ (s.giveAll b ks).tl = s.tl
      ∧ (s.giveAll b ks).bc = s.bc ∧ (s.giveAll b ks).mc = s.mc
      ∧ (s.giveAll b ks).pending = s.pending := by
  induction ks generalizing s b with
  | nil => exact ⟨rfl, rfl, rfl, rfl, rfl, rfl⟩
  | cons k ks ih => exact ih (s.giveSlot b k) _

theorem State.recordsBegun_cu {s : State} {c : Addr} {b : OpenBatch} (addr : b.addr = c)
    (given : s.cu.given = []) (ks : List SlotId) : (s.recordsBegun b ks).cu = { s.cu with
      phase := .records, given := ks, batches := countRecords c ks.length s.cu.batches } := by
  rw [State.recordsBegun, State.giveAll_cu, State.withChain_cu, given, addr]
  rfl

theorem State.readsRecords {s : State} {c : Addr} {b : OpenBatch} (addr : b.addr = c)
    (given : s.cu.given = []) {ks : List SlotId} (nodup : ks.Nodup) :
    s.ReadsRecords (s.recordsRead b ks) c b ks := by
  have cu := State.recordsBegun_cu addr given ks
  have rt : (s.recordsBegun b ks).rt = { s.rt with
      slots := (s.recordsBegun b ks).rt.slots, age := s.rt.age ++ ks } :=
    State.giveAll_rt ks (s.withChain { s.cu with phase := .records }) b
  have others : ∀ j, j ∉ ks → (s.recordsBegun b ks).slot j = s.slot j := fun j out =>
    State.slot_giveAll_of_not_mem ks (s.withChain { s.cu with phase := .records }) b out
  have slots : ∀ (i : Nat) k, ks[i]? = some k → (s.recordsBegun b ks).slot k = { Slot.empty with
      state := .fetching, batch := c, index := b.nextRecord + i } := fun i k at_ => by
    rw [← addr]
    exact State.slot_giveAll ks nodup (s.withChain { s.cu with phase := .records }) b at_
  obtain ⟨bi, ec, tl, bc, mc, pending⟩ : (s.recordsBegun b ks).bi = s.bi ∧
      (s.recordsBegun b ks).ec = s.ec
      ∧ (s.recordsBegun b ks).tl = s.tl ∧ (s.recordsBegun b ks).bc = s.bc
      ∧ (s.recordsBegun b ks).mc = s.mc ∧ (s.recordsBegun b ks).pending = s.pending :=
    State.giveAll_frame ks (s.withChain { s.cu with phase := .records }) b
  rw [State.recordsRead]
  generalize s.recordsBegun b ks = v at *
  obtain ⟨⟨⟨rt', tl', bc', mc'⟩, ⟨setupL, setupH, mask, rest⟩, keeps, adds⟩, ec', cu', issued⟩ :=
    State.foldl_readSlot ks (v.withChain { v.cu with given := [] })
  have bi' : (v.withChain { v.cu with given := [] }).bi = s.bi := bi
  have slot : ∀ k, (v.withChain { v.cu with given := [] }).slot k = v.slot k := fun k => rfl
  rw [bi'] at setupL setupH
  rw [State.keepsAccesses, bi'] at keeps
  rw [State.addsOnly, bi'] at adds
  generalize ks.foldl State.readSlot (v.withChain { v.cu with given := [] }) = t at *
  refine ⟨ec'.trans ec, tl'.trans tl, bc'.trans bc, mc'.trans mc, ⟨setupL, setupH,
    mask.trans (congrArg EngineControl.intMask ec), rest.trans pending⟩, keeps, adds, ?_, ?_,
    fun k out => (State.slot_of_rt rt' k).trans (others k out), fun i k at_ =>
    ⟨(State.slot_of_rt rt' k).trans (slots i k at_), ?_⟩⟩
  · rw [cu', State.withChain_cu, cu]
  · rw [rt']
    exact rt
  · have reads := issued k (List.mem_of_getElem? at_)
    rwa [slot, slots i k at_] at reads

/-- The reads of slots given to consecutive records of one batch, the last of which may be the last
of the batch (R99). -/
theorem State.foldl_issueRecordRead_of_batch {s : State} {c : Addr} {b : OpenBatch} {start : Nat}
    {ks : List SlotId} (isOpen : s.openBatch c = some b)
    (holds : ∀ (i : Nat) k, ks[i]? = some k → (s.slot k).batch = c ∧ (s.slot k).index = start + i)
    (fits : start + ks.length ≤ b.recordCount) : ks.foldl State.issueRecordRead s =
      if ks ≠ [] ∧ start + ks.length = b.recordCount then
      (ks.foldl State.readSlot s).afterLastRecord c
      else ks.foldl State.readSlot s := by
  rcases List.eq_nil_or_concat ks with rfl | ⟨init, last, rfl⟩
  · rw [if_neg (by simp)]
    rfl
  · rw [List.concat_eq_append] at *
    simp only [List.length_append, List.length_singleton] at fits
    have before : init.foldl State.issueRecordRead s = init.foldl State.readSlot s := by
      refine State.foldl_issueRecordRead_of_more init (b := b) fun k mem => ?_
      obtain ⟨i, less, rfl⟩ := List.mem_iff_getElem.mp mem
      obtain ⟨batch, index⟩ := holds i init[i] (by simp [List.getElem?_append_left less])
      rw [batch, index]
      exact ⟨isOpen, by omega⟩
    obtain ⟨batch, index⟩ := holds init.length last (by simp)
    obtain ⟨acts, -, cu, -⟩ := State.foldl_readSlot init s
    rw [List.foldl_append, List.foldl_append, before]
    simp only [List.foldl_cons, List.foldl_nil, List.length_append, List.length_singleton]
    generalize init.foldl State.readSlot s = r at acts cu
    have slot : r.slot last = s.slot last := State.slot_of_rt acts.path.1 last
    have isOpen' : r.openBatch (r.slot last).batch = some b := by
      rw [slot, batch, State.openBatch, cu]
      exact isOpen
    by_cases ends : start + (init.length + 1) = b.recordCount
    · rw [if_pos ⟨by simp, ends⟩, State.issueRecordRead_of_last isOpen'
        (by rw [slot, index]; omega), slot,
        batch]
    · rw [if_neg (fun h => ends h.2), State.issueRecordRead_of_more isOpen'
        (by rw [slot, index]; omega)]

/-- The reads of phase RECORDS, when no read waits (R99): those of the slots given, and after the
last record that of the link. -/
theorem State.readRecords_of_current {s : State} {c : Addr} {b : OpenBatch}
    (may : s.mayIssue = true)
    (current : s.cu.current = some c) (isOpen : s.openBatch c = some b)
    (given : s.cu.given = []) {ks : List SlotId}
    (slots : ks = s.freeSlots.take (min 64 (b.recordCount - b.nextRecord))) :
    (s.withChain { s.cu with phase := .records }).readRecords =
      if ks ≠ [] ∧ b.nextRecord + ks.length = b.recordCount then
      (s.recordsRead b ks).afterLastRecord c
      else s.recordsRead b ks := by
  have addr := State.openBatch_addr isOpen
  have gives : State.giveSlots 64 (s.withChain { s.cu with phase := .records }) =
      s.recordsBegun b ks :=
    slots ▸ State.giveSlots_eq 64 rfl current isOpen
  have fits : b.nextRecord + ks.length ≤ b.recordCount ∨ ks = [] := by
    have length : ks.length ≤ b.recordCount - b.nextRecord := by
      rw [slots, List.length_take]
      omega
    rcases Nat.eq_zero_or_pos ks.length with none | some
    · exact .inr (List.length_eq_zero_iff.mp none)
    · exact .inl (by omega)
  have nodup : ks.Nodup := slots ▸ s.nodup_freeSlots.sublist (List.take_sublist _ _)
  have cu := State.recordsBegun_cu addr given ks
  have frame : (s.recordsBegun b ks).ec = s.ec :=
    (State.giveAll_frame ks (s.withChain { s.cu with phase := .records }) b).2.1
  have may' : (s.recordsBegun b ks).mayIssue = true := State.mayIssue_of_ec frame may
  have holds : ∀ (i : Nat) k, ks[i]? = some k → (s.recordsBegun b ks).slot k = { Slot.empty with
      state := .fetching, batch := c, index := b.nextRecord + i } := fun i k at_ => by
    rw [← addr]
    exact State.slot_giveAll ks nodup (s.withChain { s.cu with phase := .records }) b at_
  have isOpen' : ((s.recordsBegun b ks).withChain { (s.recordsBegun b ks).cu with given := []
      }).openBatch c
      = some { b with nextRecord := b.nextRecord + ks.length } := by
    rw [State.openBatch, State.withChain_cu, cu, find_countRecords]
    rw [State.openBatch] at isOpen
    rw [isOpen, Option.map_some]
  have issues : (s.recordsBegun b ks).issueGiven = ks.foldl State.issueRecordRead
      ((s.recordsBegun b ks).withChain { (s.recordsBegun b ks).cu with given := [] }) := by
    rw [State.issueGiven, if_pos may', cu]
    rfl
  rw [State.readRecords, gives, issues, State.recordsRead]
  rcases fits with fits | rfl
  · refine State.foldl_issueRecordRead_of_batch
      (b := { b with nextRecord := b.nextRecord + ks.length })
      isOpen' (start := b.nextRecord) (fun i k at_ => ?_) fits
    have slot := holds i k at_
    exact ⟨congrArg Slot.batch slot, congrArg Slot.index slot⟩
  · rw [if_neg (by simp)]
    rfl

theorem State.takenWritten_of_taking {s : State} (phase : s.cu.phase = .taking) :
    s.takenWritten = (s.withChain { s.cu with phase := .records }).readRecords.settleStop := by
  rw [State.takenWritten, phase]
  rfl

theorem State.afterLastRecord_of_goesOn {s : State} (goes : s.goesOn) (a : Addr) :
    s.afterLastRecord a = (s.withChain { s.cu with
      current := none, anchor := some ⟨a, false, false⟩, phase := .link }).issueRead
        .linkRead a 8 := by
  have stops : s.stopInForce = false := State.stopInForce_of_goesOn goes
  exact if_neg (by rw [← Bool.not_eq_true] at stops; exact stops)

/-- The link read, if it follows the reads of the records (R99). -/
theorem State.linkAfterRecords {s : State} (goes : s.goesOn) (c : Addr) (last : Prop)
    [Decidable last] :
    let t := if last then s.afterLastRecord c else s
    s.ChainActs t AccessKind.ofRecords ∧ t.ec = s.ec
      ∧ t.cu = { s.cu with phase := t.cu.phase, current := t.cu.current, anchor := t.cu.anchor }
      ∧ (last → t.cu.phase = .link ∧ t.cu.current = none ∧ t.cu.anchor = some ⟨c, false, false⟩
        ∧ t.hasIssued .linkRead c 8 [])
      ∧ (¬last → t = s) := by
  intro t
  by_cases h : last
  · have link : t = s.afterLastRecord c := if_pos h
    rw [State.afterLastRecord_of_goesOn goes] at link
    clear_value t
    subst link
    exact ⟨(State.ChainActs.withChain s _ _).trans (State.ChainActs.issueRead _ _ _ rfl), rfl, rfl,
      fun _ => ⟨rfl, rfl, rfl, State.hasIssued_issueRead _ _ _ _⟩, fun no => absurd h no⟩
  · have same : t = s := if_neg h
    clear_value t
    subst same
    exact ⟨State.ChainActs.refl t _, rfl, rfl, fun yes => absurd yes h, fun _ => rfl⟩

/-- What the reads of the records, and of the link, leave to the end of the event. -/
theorem State.ReadsRecords.close {s t u : State} {tag : Nat} {c : Addr} {b : OpenBatch}
    {ks : List SlotId}
    (reads : (s.endAccess tag).ReadsRecords t c b ks) (acts : t.ChainActs u AccessKind.ofRecords) :
    s.endsAccess tag u.closeEvent ∧ s.addsOnly u.closeEvent AccessKind.ofRecords
      ∧ s.sameWindow u.closeEvent := by
  have adds : (s.endAccess tag).addsOnly t AccessKind.ofRecords := fun x mem fresh =>
    (reads.adds x mem fresh).imp id fun kind => by rw [AccessKind.ofRecords, kind]; rfl
  exact ⟨State.endsAccess.close (State.keepsAccesses.ends (reads.keeps.trans acts.keeps)),
    State.addsOnly.close (State.addsOnly_of_endAccess (adds.trans acts.adds)),
    State.sameWindow.close (reads.window.trans acts.window)⟩

/-- Settles O24, by whether the last record of the batch is among those read. -/
theorem takenWriteCompletionBeginsTheRecords :
    Obligations.TakenWriteCompletionBeginsTheRecords := by
  intro s tag a c b awaits kind running phase current isOpen more given free m
  have event := exec_takenWriteCompletion awaits kind
  have count : free.length ≤ 64 := s.length_freeSlots_le
  have length : (free.take m).length = m := by
    rw [List.length_take]
    omega
  have taken : free.take m = (s.endAccess tag).freeSlots.take
      (min 64 (b.recordCount - b.nextRecord)) := by
    have same : (s.endAccess tag).freeSlots = free := rfl
    rw [same, List.take_eq_take_iff]
    omega
  have reads := State.readRecords_of_current (s := s.endAccess tag)
      (State.mayIssue_of_running running)
    current isOpen given taken
  have nodup : (free.take m).Nodup := s.nodup_freeSlots.sublist (List.take_sublist _ _)
  have done := State.readsRecords (s := s.endAccess tag) (State.openBatch_addr isOpen) given nodup
  have last : (free.take m ≠ [] ∧ b.nextRecord + (free.take m).length = b.recordCount)
      ↔ b.nextRecord + m = b.recordCount := by
    rw [length, ← List.length_pos_iff, length]
    omega
  simp only [last] at reads
  have chain := done.cu
  rw [length] at chain
  rw [State.takenWritten_of_taking (s := s.endAccess tag) phase, reads] at event
  generalize (s.endAccess tag).recordsRead b (free.take m) = r at *
  have goes : r.goesOn := State.goesOn_of_running (by rw [done.ec]; exact running)
  obtain ⟨acts, ec, cu, link, rest⟩ :=
    State.linkAfterRecords goes c (b.nextRecord + m = b.recordCount)
  generalize (if b.nextRecord + m = b.recordCount then r.afterLastRecord c else r) = u at *
  have goes' : u.goesOn := by
    rw [State.goesOn, ec]
    exact goes
  rw [State.settleStop_of_goesOn goes'] at event
  obtain ⟨ends, adds, window⟩ := done.close acts
  obtain ⟨rt, tl, bc, mc⟩ := acts.path
  have rt' : u.closeEvent.rt = r.rt := (State.closeEvent_rt u).trans rt
  refine ⟨_, event, ends, adds, ?_, ?_, ?_, ?_, ?_, window, fun i k less at_ => ?_, fun k out =>
    ?_, ?_,
    fun h => ?_, fun h => ⟨?_, ?_, ?_, fun x mem fresh => ?_⟩⟩
  · have control : u.ec = s.ec := ec.trans done.ec
    apply EngineControl.ext <;> simp [control]
  · rw [rt', done.rt]
    rfl
  · exact (State.closeEvent_tl u).trans (tl.trans done.tl)
  · exact (State.closeEvent_bc u).trans (bc.trans done.bc)
  · exact (State.closeEvent_mc u).trans (mc.trans done.mc)
  · obtain ⟨slot, reads'⟩ := done.slots i k (by rw [List.getElem?_take_of_lt less]; exact at_)
    exact ⟨(State.slot_of_rt rt' k).trans slot, (reads'.mono acts.keeps).closeEvent⟩
  · exact (State.slot_of_rt rt' k).trans (done.others k out)
  · rw [State.closeEvent_cu, cu, chain]
    apply ChainUnit.ext
    case given => exact given.symm
    all_goals rfl
  · obtain ⟨phase', current', anchor', issued⟩ := link h
    rw [State.closeEvent_cu]
    exact ⟨phase', current', anchor', issued.closeEvent⟩
  · rw [State.closeEvent_cu, rest h, chain]
  · rw [State.closeEvent_cu, rest h, chain]
    exact current
  · rw [State.closeEvent_cu, rest h, chain]
    rfl
  · rw [rest h] at mem
    have only : s.addsOnly r.closeEvent AccessKind.isRecordRead :=
      State.addsOnly.close (State.addsOnly_of_endAccess done.adds)
    rcases only x mem fresh with status | record
    · rw [status]
      exact fun h => by cases h
    · intro h
      rw [h] at record
      cases record

end Sys2Proof.Machine
end


section
/-! The table profile is accepted (R153, R154). -/

namespace Sys2Proof.Machine

/-! ## What the checks on the profile give (R152) -/

theorem TableProfile.wellFormed_getD (p : TableProfile) (rows : Option Nat) :
    p.wellFormed rows = p.wellFormed (some (rows.getD 0)) := by
  cases rows <;> rfl

theorem TableProfile.facts_of_wellFormed {p : TableProfile} {rows : Option Nat}
    (h : p.wellFormed rows = true) : 10 ≤ p.size ∧ (writePolicyOf p.policyCode).isSome = true
      ∧ aligned64 p.chainStart = true := by
  rw [TableProfile.wellFormed_getD, TableProfile.wellFormed_iff] at h
  obtain ⟨size, -, -, policy, -, -, aligned, -, -⟩ := h
  exact ⟨size, (writePolicyOf_isSome_iff _).mpr policy, (aligned64_iff _).mpr aligned⟩

/-! ## The status write of the event goes to the new address (R169) -/

/-- A status update without a cause, among the last things an event does to the Engine Control: its
write carries the causes that waited. -/
theorem State.issuesStatus_of_same {u w : State} (same : u.statusUpdate.sameStatus w) {addr : Addr}
    (known : u.ec.statusAddr = some addr) (idle : u.ec.status.outstanding = none)
    (free : u.ec.engine ≠ .stalled) :
    w.closeEvent.ec.status.attachedCauses = u.ec.status.waitingCauses
      ∧ w.closeEvent.ec.status.waitingCauses = 0
      ∧ w.closeEvent.hasIssued .statusWrite addr w.closeEvent.statusBlock.length
        w.closeEvent.statusBlock := by
  rw [← State.raise_zero u.statusUpdate] at same
  obtain ⟨-, raises⟩ := State.raisesCause_of_same (s := u) 0 same rfl rfl rfl rfl rfl fun h =>
      free h.1
  obtain ⟨-, issues, -⟩ := raises addr known
  obtain ⟨attached, waiting, -, -, issued⟩ := issues idle
  exact ⟨attached.trans BitVec.or_zero, waiting, issued⟩

/-! ## The cache discards its lines (R61) -/

/-- The clear sweep's discard has begun; the status update is still owed (R61, R142, R154). -/
def State.discardBegun (s : State) : State :=
  { s with
    ec := { s.ec with engine := .clearing, identity := none, sweep := ⟨.discard, 0, 0⟩ }
    bc := { s.bc with poison := [], overflow := false, sets := s.bc.sets.map CacheSet.discard } }

theorem State.beginClearing_eq (s : State) :
    s.beginClearing = s.discardBegun.statusUpdate.checkDiscard := rfl

theorem State.line_discardBegun (s : State) (i : SetId) (w : Way) : s.discardBegun.line i w =
    if (s.line i w).state = .clean ∨ (s.line i w).state =
    .dirty then Line.empty else s.line i w := by
  have kept : s.discardBegun.line i w = if (s.line i w).state == .clean || (s.line i w).state ==
      .dirty
      then .empty else s.line i w := by
    simp only [State.line, State.cacheSet, State.discardBegun, CacheSet.discard, Fin.getElem_fin,
      Vector.getElem_map]
    rfl
  rw [kept]
  by_cases dropped : (s.line i w).state = .clean ∨ (s.line i w).state = .dirty
  · rw [if_pos dropped, if_pos (by simpa using dropped)]
  · rw [if_neg dropped, if_neg (by simpa using dropped)]

/-- A sweep that is not interrupted goes on, or begins to write. -/
theorem State.checkDiscard_cases {s : State} (alone : s.ec.ending = .none) :
    s.checkDiscard = s ∨ s.checkDiscard
      = (s.startWriting).continueSweep := by
  unfold State.checkDiscard
  split
  · exact .inr (if_pos (by simp [alone]))
  · exact .inl rfl

theorem State.checkDiscard_frame {s : State} (alone : s.ec.ending = .none) :
    s.checkDiscard.bi = s.bi ∧ s.checkDiscard.cu = s.cu
      ∧ s.checkDiscard.ec = { s.ec with sweep := s.checkDiscard.ec.sweep } := by
  obtain same | writes := State.checkDiscard_cases alone
  · rw [same]
    exact ⟨rfl, rfl, rfl⟩
  · rw [writes]
    refine ⟨by rw [State.continueSweep_bi]; rfl, by rw [State.continueSweep_cu]; rfl, ?_⟩
    rw [State.continueSweep, State.pumpSweep_ec]
    rfl

theorem State.beginsWriting.of_mc {s u t : State} (h : u.beginsWriting t) (mc : u.mc = s.mc) :
    s.beginsWriting t := by
  simpa only [State.beginsWriting, State.onlyBank, State.bank, mc] using h

/-- With every line FREE at once the sweep begins to write (R61, R154). -/
theorem State.beginsWriting_beginClearing {s : State} (alone : s.ec.ending = .none)
    (free : ∀ (i : SetId) (w : Way), (s.discardBegun.line i w).state = .free)
    (none : ∀ u ∈ s.mc.waits, u.requester ≠ .sweep) (size : 10 ≤ s.tl.size)
    (few : (s.bank 0).queue.length ≤ 16) : s.beginsWriting s.beginClearing := by
  have mc : s.discardBegun.statusUpdate.mc = s.mc := State.statusUpdate_mc _
  have bank : ∀ b, s.discardBegun.statusUpdate.bank b = s.bank b := fun b => by
    rw [State.bank, mc]
    rfl
  have line : ∀ i w, s.discardBegun.statusUpdate.line i w = s.discardBegun.line i w := fun i w => by
    rw [State.line, State.cacheSet, State.statusUpdate_bc]
    rfl
  obtain ⟨writes, -⟩ := State.checkDiscard_of_free (s := s.discardBegun.statusUpdate)
    (by rw [State.statusUpdate_ec_sweep]; rfl) fun i w => by rw [line]; exact free i w
  have writes' := writes (by rw [State.statusUpdate_ec_ending]; exact alone)
  have begins : s.discardBegun.statusUpdate.beginsWriting
      s.discardBegun.statusUpdate.startWriting.continueSweep := by
    refine State.beginsWriting_continueSweep ⟨?_, rfl, rfl, rfl, ?_, fun _ _ => rfl, rfl⟩
      (by rw [mc]; exact none) (by rw [State.statusUpdate_tl]; exact size) (by rw [bank]; exact few)
    · rw [State.startWriting, State.statusUpdate_ec_sweep]
      rfl
    · exact (List.append_nil _).symm
  rw [State.beginClearing_eq, writes']
  exact begins.of_mc mc

/-! ## The accepted START (R153) -/

/-- The state in which the profile has been taken. -/
def State.profileTaken (s : State) (tag : Nat) (p : TableProfile) : State :=
  (s.endAccess tag).noStart.takeProfile p

theorem State.profileTaken_ec (s : State) (tag : Nat) (p : TableProfile) :
    (s.profileTaken tag p).ec =
    { s.ec with
      statusAddr := some p.statusAddr, parkEnable := p.parkEnable, refusalCause := .none
      startRead := none } := rfl

theorem State.profileTaken_cu (s : State) (tag : Nat) (p : TableProfile) :
    (s.profileTaken tag p).cu =
    { ChainUnit.reset with
      chainStart := p.chainStart, nextAddr := some p.chainStart, retireSeq :=
        s.cu.retireSeq } := rfl

theorem State.profileTaken_policy (s : State) (tag : Nat) {p : TableProfile}
    (policy : (writePolicyOf p.policyCode).isSome = true) :
    some (s.profileTaken tag p).bc.policy = writePolicyOf p.policyCode := by
  obtain ⟨policy, known⟩ := Option.isSome_iff_exists.mp policy
  simp [State.profileTaken, State.takeProfile, known]

/-- What an accepted START leaves, whichever way it goes on; `u` is the state before its event's
status update, `t` the state before its status write. -/
structure State.StartAccepted (s u t : State) (tag : Nat) (p : TableProfile) : Prop where
  tl : t.tl = ⟨p.size, p.seed⟩
  policy : some t.bc.policy = writePolicyOf p.policyCode
  cu : t.cu = { ChainUnit.reset with
    phase := t.cu.phase, nextAddr := some p.chainStart, chainStart := p.chainStart
    retireSeq := s.cu.retireSeq }
  ec : t.ec = { s.ec with
    engine := t.ec.engine, identity := t.ec.identity, statusAddr := some p.statusAddr
    parkEnable := p.parkEnable, refusalCause := .none, startRead := none, sweep := t.ec.sweep
    status := t.ec.status }
  rt : t.rt = s.rt
  pending : t.pending = s.pending
  setupL : t.bi.setupL = s.bi.setupL
  setupH : t.bi.setupH = s.bi.setupH
  keeps : (s.endAccess tag).keepsAccesses t
  adds : (s.endAccess tag).addsOnly t (· == .headerRead)
  same : u.statusUpdate.sameStatus t
  addr : u.ec.statusAddr = some p.statusAddr
  status : u.ec.status = s.ec.status
  free : u.ec.engine ≠ .stalled

/-- Without the clear flag (R96, R153). -/
theorem State.startAccepted_running {s : State} {tag : Nat} {p : TableProfile} {rows : Option Nat}
    (formed : p.wellFormed rows = true) (quiet : s.outstanding (· == .headerRead) = false) :
    (s.profileTaken tag p).enterRunning
        = (s.profileTaken tag p).wantHeader.statusUpdate.issueRead .headerRead p.chainStart 64
      ∧ s.StartAccepted (s.profileTaken tag p).wantHeader (s.profileTaken tag p).enterRunning tag
        p := by
  obtain ⟨-, policy, aligned⟩ := TableProfile.facts_of_wellFormed formed
  have reads : (s.profileTaken tag p).readsHeader = false :=
    (Bool.or_false _).trans (State.outstanding_endAccess_of_false tag quiet)
  have runs := State.enterRunning_of_aligned (s := s.profileTaken tag p) aligned rfl reads
  refine ⟨runs, ?_⟩
  rw [runs]
  have ec := s.profileTaken_ec tag p
  have cu := s.profileTaken_cu tag p
  have taken := s.profileTaken_policy tag policy
  have issues : ((s.profileTaken tag p).wantHeader.statusUpdate.issueRead .headerRead p.chainStart
      64).bi.accesses = (s.endAccess tag).bi.accesses ++ [_] :=
    (State.issueRead_accesses _ _ _ _).trans (by rw [State.statusUpdate_bi]; rfl)
  constructor
  case tl => rw [State.issueRead_tl, State.statusUpdate_tl]; rfl
  case policy => rw [State.issueRead_bc, State.statusUpdate_bc]; exact taken
  case cu => rw [State.issueRead_cu, State.statusUpdate_cu]; rfl
  case ec => apply EngineControl.ext <;> simp [State.wantHeader, ec]
  case rt => rw [State.issueRead_rt, State.statusUpdate_rt]; rfl
  case pending => rw [State.issueRead_pending, State.statusUpdate_pending]; rfl
  case setupL => simp [State.wantHeader, State.profileTaken, State.takeProfile, State.noStart]
  case setupH => simp [State.wantHeader, State.profileTaken, State.takeProfile, State.noStart]
  case keeps => exact State.keepsAccesses_append issues
  case adds => exact State.addsOnly_append issues (by simp)
  case same => exact State.sameStatus_of_ec (State.issueRead_ec _ _ _ _)
  case addr => rfl
  case status => rfl
  case free => exact fun h => by cases h

/-- With the clear flag (R61, R153, R154). -/
theorem State.startAccepted_clearing {s : State} {tag : Nat} {p : TableProfile} {rows : Option Nat}
    (formed : p.wellFormed rows = true) (alone : s.ec.ending = .none) :
    s.StartAccepted (s.profileTaken tag p).discardBegun (s.profileTaken tag p).beginClearing tag p
      ∧ (s.profileTaken tag p).beginClearing.bc = (s.profileTaken tag p).discardBegun.bc
      ∧ (s.profileTaken tag p).beginClearing.ec.engine = .clearing
      ∧ (s.profileTaken tag p).beginClearing.ec.identity = none
      ∧ (s.profileTaken tag p).beginClearing.cu = (s.profileTaken tag p).cu := by
  obtain ⟨-, policy, -⟩ := TableProfile.facts_of_wellFormed formed
  have ec := s.profileTaken_ec tag p
  have taken := s.profileTaken_policy tag policy
  obtain ⟨bi, cu, ec'⟩ := State.checkDiscard_frame
      (s := (s.profileTaken tag p).discardBegun.statusUpdate)
    (by rw [State.statusUpdate_ec_ending]; exact alone)
  rw [State.statusUpdate_bi] at bi
  rw [State.statusUpdate_cu] at cu
  have bc : (s.profileTaken tag p).discardBegun.statusUpdate.checkDiscard.bc
      = (s.profileTaken tag p).discardBegun.bc := by
    rw [State.checkDiscard_bc, State.statusUpdate_bc]
  have bus : (s.profileTaken tag p).discardBegun.bi = (s.endAccess tag).bi := rfl
  rw [State.beginClearing_eq]
  refine ⟨?_, bc, ?_, ?_, cu⟩
  · constructor
    case tl => rw [State.checkDiscard_tl, State.statusUpdate_tl]; rfl
    case policy => rw [bc]; exact taken
    case cu => rw [cu]; rfl
    case ec => rw [ec']; apply EngineControl.ext <;> simp [State.discardBegun, ec]
    case rt => rw [State.checkDiscard_rt, State.statusUpdate_rt]; rfl
    case pending => rw [State.checkDiscard_pending, State.statusUpdate_pending]; rfl
    case setupL => rw [bi, bus]; rfl
    case setupH => rw [bi, bus]; rfl
    case keeps => exact State.keepsAccesses_of_eq (by rw [bi, bus])
    case adds => exact State.addsOnly_of_eq (by rw [bi, bus])
    case same =>
      rw [State.sameStatus, ec']
      exact ⟨rfl, rfl, rfl, rfl⟩
    case addr => rfl
    case status => rfl
    case free => exact fun h => by cases h
  · rw [ec', State.statusUpdate_ec_engine]
    rfl
  · rw [ec', State.statusUpdate_ec_identity]
    rfl

/-- The profile that is accepted (R152, R153). -/
theorem State.tableProfileArrived_of_accepted {s : State} {tag : Nat} {d : Block64}
    {p : TableProfile}
    (decoded : p = decodeTableProfile d) (formed : p.wellFormed s.mc.rows = true)
    (same : p.clear = true ∨ s.ec.identity = some ⟨p.size, p.seed⟩) :
    (s.endAccess tag).tableProfileArrived d =
      if p.clear then (s.profileTaken tag p).beginClearing else
      (s.profileTaken tag p).enterRunning := by
  have formed' : p.wellFormed (s.endAccess tag).noStart.mc.rows = true := formed
  rw [State.tableProfileArrived_eq, ← decoded, State.judgeProfile, formed']
  split
  · contradiction
  · split
    · rfl
    · have known : (s.endAccess tag).noStart.ec.identity = some p.identity :=
        same.resolve_left (by assumption)
      rw [known, if_pos (by simp)]
      rfl

/-- What the accepted START leaves at the end of the event. -/
theorem State.StartAccepted.close {s u t : State} {tag : Nat} {p : TableProfile}
    (h : s.StartAccepted u t tag p) : t.closeEvent.tl.size = p.size ∧ t.closeEvent.tl.seed = p.seed
      ∧ some t.closeEvent.bc.policy = writePolicyOf p.policyCode
      ∧ t.closeEvent.cu = { ChainUnit.reset with
          phase := t.closeEvent.cu.phase, nextAddr := some p.chainStart, chainStart := p.chainStart
          retireSeq := s.cu.retireSeq }
      ∧ t.closeEvent.ec = { s.ec with
          engine := t.closeEvent.ec.engine, identity := t.closeEvent.ec.identity
          statusAddr := some p.statusAddr, parkEnable := p.parkEnable, refusalCause := .none
          startRead := none, sweep := t.closeEvent.ec.sweep, status := t.closeEvent.ec.status }
      ∧ s.sameWindow t.closeEvent ∧ t.closeEvent.rt = s.rt ∧ s.endsAccess tag t.closeEvent
      ∧ s.addsOnly t.closeEvent (· == .headerRead)
      ∧ (s.ec.status.outstanding = none →
          t.closeEvent.ec.status.attachedCauses = s.ec.status.waitingCauses
          ∧ t.closeEvent.ec.status.waitingCauses = 0
          ∧ t.closeEvent.hasIssued .statusWrite p.statusAddr t.closeEvent.statusBlock.length
            t.closeEvent.statusBlock) := by
  have mask : t.ec.intMask = s.ec.intMask := by rw [h.ec]
  refine ⟨by rw [State.closeEvent_tl, h.tl], by rw [State.closeEvent_tl, h.tl],
    by rw [State.closeEvent_bc]; exact h.policy, by rw [State.closeEvent_cu]; exact h.cu, ?_,
    State.sameWindow.close ⟨h.setupL, h.setupH, mask, h.pending⟩, by rw [State.closeEvent_rt, h.rt],
    State.endsAccess.close (State.keepsAccesses.ends h.keeps),
    State.addsOnly.close (State.addsOnly_of_endAccess h.adds), fun idle => ?_⟩
  · obtain ⟨engine, identity, sweep, status, ec⟩ : ∃ engine identity sweep status, t.ec =
      { s.ec with
        engine := engine, identity := identity, statusAddr := some p.statusAddr
        parkEnable := p.parkEnable, refusalCause := .none, startRead := none, sweep := sweep
        status := status } := ⟨_, _, _, _, h.ec⟩
    apply EngineControl.ext <;> simp [ec]
  · have issues := State.issuesStatus_of_same h.same h.addr (by rw [h.status]; exact idle) h.free
    rwa [h.status] at issues

theorem State.beginsWriting.close {s t : State} (h : s.beginsWriting t) :
    s.beginsWriting t.closeEvent := by
  simpa only [State.beginsWriting, State.onlyBank, State.bank, State.closeEvent_mc,
    State.closeEvent_ec_sweep] using h

/-- While a line is neither FREE nor dropped the sweep writes nothing (R61). -/
theorem State.beginClearing_of_busy {s : State} {i : SetId} {w : Way}
    (busy : (s.discardBegun.line i w).state ≠ .free) :
    s.beginClearing = s.discardBegun.statusUpdate := by
  rw [State.beginClearing_eq]
  refine State.checkDiscard_of_busy (i := i) (w := w) ?_
  rw [State.line, State.cacheSet, State.statusUpdate_bc]
  exact busy

/-- Settles O22, by the clear flag. -/
theorem tableProfileArrivalAcceptsStart : Obligations.TableProfileArrivalAcceptsStart := by
  intro s tag a d p awaits kind ready alone quiet decoded formed accepted
  have event : exec (.tableProfileArrival tag d) s
      = .next ((s.endAccess tag).tableProfileArrived d).closeEvent :=
    next_closeEvent (State.onEnd_of_awaits awaits (by rw [kind]; rfl) _)
  rw [State.tableProfileArrived_of_accepted decoded formed accepted] at event
  obtain ⟨size, -, -⟩ := TableProfile.facts_of_wellFormed formed
  cases clear : p.clear
  case false =>
    rw [clear, if_neg Bool.false_ne_true] at event
    obtain ⟨runs, start⟩ := State.startAccepted_running (tag := tag) formed quiet
    obtain ⟨tl, seed, policy, cu, ec, window, rt, ends, adds, status⟩ := start.close
    refine ⟨_, event, tl, seed, policy, cu, ec, window, rt, ends, adds, status,
      fun _ => ⟨?_, ?_, ?_, ?_, ?_, ?_, ?_⟩, fun h => (by cases h)⟩
    · simp [runs, State.wantHeader]
    · simp [runs, State.wantHeader, State.profileTaken_ec]
    · simp [runs, State.wantHeader]
    · rw [runs]
      exact (State.hasIssued_issueRead _ _ _ _).closeEvent
    · rw [State.closeEvent_bc, runs, State.issueRead_bc, State.statusUpdate_bc]
      rfl
    · rw [State.closeEvent_mc, runs, State.issueRead_mc, State.statusUpdate_mc]
      rfl
    · simp [runs, State.wantHeader, State.profileTaken_ec]
  case true =>
    rw [clear, if_pos rfl] at event
    obtain ⟨start, bc, engine, identity, chain⟩ := State.startAccepted_clearing (tag := tag)
        formed alone
    obtain ⟨tl, seed, policy, cu, ec, window, rt, ends, adds, status⟩ := start.close
    have line : ∀ i w, (s.profileTaken tag p).discardBegun.line i w
        = if (s.line i w).state = .clean ∨ (s.line i w).state =
          .dirty then Line.empty else s.line i w :=
      State.line_discardBegun (s.profileTaken tag p)
    refine ⟨_, event, tl, seed, policy, cu, ec, window, rt, ends, adds, status,
      fun h => (by cases h), fun _ => ⟨?_, ?_, ?_, ?_, ?_, fun i w => ?_, fun busy => ?_,
        fun settled none few => ?_⟩⟩
    · exact (State.closeEvent_ec_engine _).trans engine
    · exact (State.closeEvent_ec_identity _).trans identity
    · rw [State.closeEvent_cu, chain]
      rfl
    · rw [State.closeEvent_bc, bc]
      rfl
    · rw [State.closeEvent_bc, bc]
      rfl
    · rw [State.line, State.cacheSet, State.closeEvent_bc, bc]
      exact line i w
    · obtain ⟨i, w, busy⟩ := busy
      have kept : (s.profileTaken tag p).discardBegun.line i w = s.line i w := by
        rw [line, if_neg]
        rcases busy with h | h | h <;> simp [h]
      have stays := State.beginClearing_of_busy (s := s.profileTaken tag p) (i := i) (w := w) (by
        rw [kept]
        rcases busy with h | h | h <;> simp [h])
      rw [stays]
      refine ⟨?_, ?_⟩
      · rw [State.closeEvent_ec_sweep, State.statusUpdate_ec_sweep]
        rfl
      · rw [State.closeEvent_mc, State.statusUpdate_mc]
        rfl
    · have begins := State.beginsWriting_beginClearing (s := s.profileTaken tag p)
        alone (fun i w => ?_)
        none size few
      · exact (begins.of_mc rfl).close
      · rw [line]
        split
        · rfl
        · exact (settled i w).resolve_right (by assumption)

end Sys2Proof.Machine
end


section
/-! STOP in RUNNING (R109, R160). -/

namespace Sys2Proof.Machine

/-! ## The Chain Unit at STOP (R109) -/

theorem State.unpark_cu_eq (s : State) : s.unpark.cu = { s.cu with parked := false } := by
  unfold State.unpark
  split
  · simp
  · rename_i h
    rw [← Bool.eq_false_of_not_eq_true h]

theorem State.ChainActs.unpark (s : State) (p : AccessKind → Bool) : s.ChainActs s.unpark p :=
  State.ChainActs.of_bi (by simp) (by simp [State.sameTablePath]) (by simp) (by simp) p

theorem State.unpark_ec_eq (s : State) : s.unpark.ec =
    { s.ec with status := s.unpark.ec.status } := by
  apply EngineControl.ext <;> simp

theorem State.stopChain_of_stays {s : State} (phase : s.cu.phase = .taking ∨ s.cu.phase = .records
    ∨ s.cu.phase = .link ∨ s.cu.phase = .blocked) : s.stopChain = s := by
  rcases phase with h | h | h | h <;> simp only [State.stopChain, h]

theorem State.stopChain_of_header {s : State} (phase : s.cu.phase = .header) : s.stopChain =
    if s.outstanding (· == .headerRead) then s else s.withChain { s.cu with phase := .ended } := by
  simp only [State.stopChain, phase]
  rfl

theorem State.stopChain_of_idle {s : State} (phase : s.cu.phase = .parked ∨ s.cu.phase = .idle) :
    s.stopChain = s.unpark.withChain { s.unpark.cu with phase := .ended } := by
  rcases phase with h | h <;> simp only [State.stopChain, h] <;> rfl

/-- The three ways of the Chain Unit at STOP. -/
theorem State.stopChain_cases (s : State) : s.stopChain = s
    ∨ s.stopChain = s.withChain { s.cu with phase := .ended }
    ∨ s.stopChain = s.unpark.withChain { s.unpark.cu with phase := .ended } := by
  cases phase : s.cu.phase
  case header =>
    rw [State.stopChain_of_header phase]
    split
    · exact .inl rfl
    · exact .inr (.inl rfl)
  case parked => exact .inr (.inr (State.stopChain_of_idle (.inl phase)))
  case idle => exact .inr (.inr (State.stopChain_of_idle (.inr phase)))
  case ended => exact .inl (by simp only [State.stopChain, phase])
  all_goals exact .inl (State.stopChain_of_stays (by simp [phase]))

theorem State.stopChain_cu (s : State) : s.stopChain.cu = { s.cu with
    phase := s.stopChain.cu.phase, parked := s.stopChain.cu.parked } := by
  obtain h | h | h := s.stopChain_cases
  · rw [h]
  · rw [h]
    rfl
  · rw [h, State.withChain_cu, State.unpark_cu_eq]

theorem State.stopChain_ec (s : State) :
    s.stopChain.ec = { s.ec with status := s.stopChain.ec.status } := by
  obtain h | h | h := s.stopChain_cases
  · rw [h]
  · rw [h]
    rfl
  · rw [h, State.withChain_ec]
    exact s.unpark_ec_eq

theorem State.ChainActs.stopChain (s : State) (p : AccessKind → Bool) :
    s.ChainActs s.stopChain p := by
  obtain h | h | h := s.stopChain_cases
  · rw [h]
    exact State.ChainActs.refl s p
  · rw [h]
    exact State.ChainActs.withChain s _ p
  · rw [h]
    exact (State.ChainActs.unpark s p).trans (State.ChainActs.withChain _ _ p)

/-! ## STOPPING begins (R160) -/

/-- The state in which STOPPING has begun, before the Chain Unit acts. -/
def State.stoppingAs (s : State) (ending : Ending) : State :=
  { s with ec := { s.ec with
    engine := .stopping, ending := ending, tableEmpty := false, chainClosed := false } }

theorem State.enterStopping_eq (s : State) (ending : Ending) : s.enterStopping ending =
    if s.ec.engine == .stopping then s.stoppingAs ending else
    (s.stoppingAs ending).statusUpdate := rfl

theorem State.enterStopping_ec (s : State) (ending : Ending) : (s.enterStopping ending).ec =
    { s.ec with
    engine := .stopping, ending := ending, tableEmpty := false, chainClosed := false
    status := (s.enterStopping ending).ec.status } := by
  rw [State.enterStopping_eq]
  split
  · rfl
  · apply EngineControl.ext <;> simp [State.stoppingAs]

theorem State.enterStopping_blocks (s : State) (ending : Ending) :
    (s.enterStopping ending).bi = s.bi
    ∧ (s.enterStopping ending).cu = s.cu ∧ s.sameTablePath (s.enterStopping ending)
    ∧ (s.enterStopping ending).pending = s.pending := by
  rw [State.enterStopping_eq]
  split
  · exact ⟨rfl, rfl, ⟨rfl, rfl, rfl, rfl⟩, rfl⟩
  · refine ⟨by simp [State.stoppingAs], by simp [State.stoppingAs], ?_, by simp [State.stoppingAs]⟩
    simp [State.sameTablePath, State.stoppingAs]

theorem State.ChainActs.enterStopping (s : State) (ending : Ending) (p : AccessKind → Bool) :
    s.ChainActs (s.enterStopping ending) p := by
  obtain ⟨bi, -, path, pending⟩ := s.enterStopping_blocks ending
  exact State.ChainActs.of_bi bi path (by rw [State.enterStopping_ec]) pending p

/-- The state in which STOP has stopped the Chain Unit, before the reports. -/
def State.stopBegun (s : State) : State := (s.enterStopping .stop).stopChain

/-- What STOP leaves before the reports. -/
theorem State.stopBegun_frame (s : State) : s.stopBegun.ec = { s.ec with
      engine := .stopping, ending := .stop, tableEmpty := false, chainClosed := false
      status := s.stopBegun.ec.status }
    ∧ s.stopBegun.cu = { s.cu with
      phase := s.stopBegun.cu.phase, parked := s.stopBegun.cu.parked }
    ∧ s.stopBegun.bi = s.bi ∧ ∀ p, s.ChainActs s.stopBegun p := by
  obtain ⟨bi, cu, -, -⟩ := s.enterStopping_blocks .stop
  have chain := (s.enterStopping .stop).stopChain_cu
  have ec := (s.enterStopping .stop).stopChain_ec
  rw [cu] at chain
  rw [State.enterStopping_ec] at ec
  refine ⟨ec, chain, ?_, fun p =>
    (State.ChainActs.enterStopping s .stop p).trans (State.ChainActs.stopChain _ p)⟩
  rw [State.stopBegun]
  obtain h | h | h := (s.enterStopping .stop).stopChain_cases
  · rw [h, bi]
  · rw [h, State.withChain_bi, bi]
  · rw [h, State.withChain_bi, State.unpark_bi, bi]

/-- The fetch phase at STOP (R109). -/
theorem State.stopBegun_phase (s : State) :
    ((s.cu.phase = .taking ∨ s.cu.phase = .records ∨ s.cu.phase = .link ∨ s.cu.phase = .blocked) →
        s.stopBegun.cu.phase = s.cu.phase)
      ∧ (s.cu.phase = .header → s.outstanding (· == .headerRead) = true →
        s.stopBegun.cu.phase = .header)
      ∧ (s.cu.phase = .header → s.outstanding (· == .headerRead) = false →
        s.stopBegun.cu.phase = .ended)
      ∧ (s.cu.phase = .parked → s.stopBegun.cu.phase = .ended ∧ s.stopBegun.cu.parked = false)
      ∧ (s.cu.phase = .idle → s.stopBegun.cu.phase = .ended) := by
  obtain ⟨bi, cu, -, -⟩ := s.enterStopping_blocks .stop
  have reads : (s.enterStopping .stop).outstanding (· == .headerRead)
      = s.outstanding (· == .headerRead) := by rw [State.outstanding, bi]; rfl
  rw [State.stopBegun]
  refine ⟨fun phase => ?_, fun phase busy => ?_, fun phase idle => ?_, fun phase => ?_,
    fun phase => ?_⟩
  · rw [State.stopChain_of_stays (by rwa [cu]), cu]
  · rw [State.stopChain_of_header (by rwa [cu]), reads, busy, if_pos rfl, cu, phase]
  · rw [State.stopChain_of_header (by rwa [cu]), reads, idle, if_neg Bool.false_ne_true,
      State.withChain_cu]
  · rw [State.stopChain_of_idle (.inl (by rwa [cu])), State.withChain_cu, State.unpark_cu_eq]
    exact ⟨rfl, rfl⟩
  · rw [State.stopChain_of_idle (.inr (by rwa [cu])), State.withChain_cu]

/-! ## What STOP ends with (R109) -/

/-- While an access of the Chain Unit is outstanding nothing closes. -/
theorem State.closeAfterStop_of_outstanding {s : State}
    (busy : s.outstanding AccessKind.ofChain = true) :
    s.closeAfterStop = s ∨ ∃ a, s.closeAfterStop = s.release a := by
  unfold State.closeAfterStop
  repeat' split
  · exact .inr ⟨_, rfl⟩
  · exact .inl rfl
  · simp_all
  all_goals exact .inl rfl

/-- The reports of a STOP that leaves the chain open. -/
theorem State.settleStop_of_chainOpen {s : State} (stops : s.stopInForce = true)
    (isOpen : s.ec.chainClosed = false) (busy : s.outstanding AccessKind.ofChain = true
      ∨ ∃ a, s.tableReported.closeAfterStop = s.tableReported.release a) :
    s.settleStop = s.tableReported.closeAfterStop
      ∧ s.settleStop.ec = { s.ec with tableEmpty := s.allFree } := by
  have ec : s.tableReported.closeAfterStop.ec = s.tableReported.ec := by
    have cases : s.tableReported.closeAfterStop = s.tableReported
        ∨ ∃ a, s.tableReported.closeAfterStop = s.tableReported.release a := by
      rcases busy with busy | releases
      · exact State.closeAfterStop_of_outstanding (s := s.tableReported) busy
      · exact .inr releases
    rcases cases with h | ⟨a, h⟩
    · rw [h]
    · rw [h, State.release_ec]
  have settled := State.settleStop_of_stop stops
  rw [State.completeStop_of_open (by rw [ec]; exact isOpen)] at settled
  exact ⟨settled, by rw [settled, ec]; rfl⟩

theorem State.stop_of_running {s : State} (running : s.ec.engine = .running) :
    s.stop = s.stopBegun.settleStop := by
  simp only [State.stop, running]
  rfl

/-- Settles O8: the fetch phase by the table of R109, then the anchor that was not released. -/
theorem stopInRunningDrainsTheChain : Obligations.StopInRunningDrainsTheChain := by
  intro s running
  have event : exec .stop s = .next s.stopBegun.settleStop.closeEvent :=
    next_closeEvent (State.stop_of_running running)
  obtain ⟨ec, cu, bi, acts⟩ := s.stopBegun_frame
  obtain ⟨stays, reads, idle, parked, nothing⟩ := s.stopBegun_phase
  have engine : s.stopBegun.ec.engine = .stopping := by rw [ec]
  have ending : s.stopBegun.ec.ending = .stop := by rw [ec]
  have stops : s.stopBegun.stopInForce = true := by simp [State.stopInForce, engine, ending]
  have may : s.stopBegun.tableReported.mayIssue = true := by
    simp [State.mayIssue, State.tableReported, engine, ending]
  have isOpen : s.stopBegun.ec.chainClosed = false := by rw [ec]
  have busy : s.stopBegun.outstanding AccessKind.ofChain = s.outstanding AccessKind.ofChain := by
    rw [State.outstanding, bi]
    rfl
  have free : s.stopBegun.allFree = s.allFree := by
    rw [State.allFree, State.allFree]
    simp only [State.slot_of_rt (acts fun _ => false).path.1]
  have settles := State.settleStop_of_chainOpen stops isOpen
  have reported : s.stopBegun.tableReported.cu = s.stopBegun.cu := rfl
  have bus : s.stopBegun.tableReported.bi = s.bi := bi
  have releases : ∀ a m, s.cu.batches = [] → s.cu.retirementOutstanding = false →
      s.cu.anchor = some ⟨a, m, false⟩ →
      s.stopBegun.tableReported.closeAfterStop = s.stopBegun.tableReported.release a :=
    fun a m batches unretired anchor => (State.closeAfterStop_of_unreleased (m := m)
      (by rw [reported, cu, batches]) (by rw [reported, cu, unretired])
      (by rw [reported, cu, anchor])).trans (if_pos may)
  have control : ∀ t : State, t.ec = { s.stopBegun.ec with tableEmpty := s.stopBegun.allFree } →
      t.closeEvent.ec = { s.ec with
        engine := .stopping, ending := .stop, tableEmpty := s.allFree, chainClosed := false
        status := t.closeEvent.ec.status } := fun t h => by
    rw [ec, free] at h
    obtain ⟨status, h⟩ : ∃ status, t.ec = { s.ec with
      engine := .stopping, ending := .stop, tableEmpty := s.allFree, chainClosed := false
      status := status } := ⟨_, h⟩
    apply EngineControl.ext <;> simp [h]
  generalize s.stopBegun = u at *
  have report : s.ChainActs u.tableReported AccessKind.isReleaseWrite := (acts _).trans
    (State.ChainActs.of_bi (s := u) (t := u.tableReported) rfl ⟨rfl, rfl, rfl, rfl⟩ rfl rfl _)
  refine ⟨fun outstanding => ?_, fun a m phase batches unretired anchor => ?_⟩
  · have chain := State.closeAfterStop_of_outstanding (s := u.tableReported)
      (busy.trans outstanding)
    obtain ⟨settled, ec'⟩ := settles (.inl (busy.trans outstanding))
    have closes : s.ChainActs u.tableReported.closeAfterStop AccessKind.isReleaseWrite
        ∧ u.tableReported.closeAfterStop.cu = { u.cu with
          anchor := u.tableReported.closeAfterStop.cu.anchor
          releases := u.tableReported.closeAfterStop.cu.releases } := by
      rcases chain with h | ⟨a, h⟩
      · rw [h]
        exact ⟨report, rfl⟩
      · rw [h]
        refine ⟨report.trans (State.ChainActs.release _ a rfl), ?_⟩
        rw [State.release_cu_of_mayIssue may]
        rfl
    obtain ⟨⟨path, window, keeps, adds⟩, chain'⟩ := closes
    rw [settled] at event ec'
    have phase : u.tableReported.closeAfterStop.cu.phase = u.cu.phase := by rw [chain']
    have unparks : u.tableReported.closeAfterStop.cu.parked = u.cu.parked := by rw [chain']
    refine ⟨_, event, control _ ec', ?_, State.sameWindow.close window,
      State.keepsAccesses.close keeps,
      State.addsOnly.close adds, State.sameTablePath.close path, ?_, ?_, ?_, ?_, ?_,
      fun a m batches unretired anchor => ?_, fun held => ?_⟩
    all_goals simp only [State.closeEvent_cu, phase, unparks]
    · rw [chain', cu]
    · exact stays
    · exact reads
    · exact idle
    · exact parked
    · exact nothing
    · rw [releases a m batches unretired anchor, State.release_cu_of_mayIssue may, reported, cu,
        anchor]
      exact ⟨(State.hasIssued_release may a).closeEvent, by simp, rfl⟩
    · have same : u.tableReported.closeAfterStop = u.tableReported :=
        State.closeAfterStop_of_open (by
        rw [reported, cu]
        exact held)
      rw [same, reported, cu]
      exact ⟨rfl, rfl⟩
  · have release := releases a m batches unretired anchor
    obtain ⟨settled, ec'⟩ := settles (.inr ⟨a, release⟩)
    rw [settled, release] at event
    rw [settled, release] at ec'
    obtain ⟨ended, unparked⟩ := parked phase
    have all : s.ChainActs (u.tableReported.release a) (· == .releaseWrite a) :=
      ((acts _).trans (State.ChainActs.of_bi (s := u) (t := u.tableReported)
        rfl ⟨rfl, rfl, rfl, rfl⟩
        rfl rfl _)).trans (State.ChainActs.release _ a (beq_self_eq_true _))
    refine ⟨_, event, control _ ec', ?_, (State.hasIssued_release may a).closeEvent,
      State.keepsAccesses.close all.keeps, State.addsOnly.close all.adds,
      State.sameWindow.close all.window,
      State.sameTablePath.close all.path⟩
    rw [State.closeEvent_cu, State.release_cu_of_mayIssue may, reported, cu, ended, unparked,
      anchor]
    simp

end Sys2Proof.Machine
end


section
/-! ABANDON in the Request Table and the Chain Unit (R91, R110, R162). -/

namespace Sys2Proof.Machine

/-! ## The slots (R91) -/

/-- A slot as ABANDON leaves it, by its state, where `reads` says whether its record read is
outstanding and `reports` whether its result write is (R91). -/
def Slot.abandoned (x : Slot) (reads reports : Bool) : Slot :=
  match x.state with
  | .free | .visiting | .awaitingWrite => x
  | .waitingKey | .held | .finished => .empty
  | .fetching => if reads then { x with discarded := true } else .empty
  | .loading => if x.transfer = .outstanding then { x with discarded := true } else .empty
  | .storing => if x.transfer = .outstanding then x else .empty
  | .reporting => if reports then x else .empty

/-- Only slots of the Request Table change, and which slots wait for a record read. -/
structure State.OnlySlots (s t : State) : Prop where
  bi : t.bi = s.bi
  ec : t.ec = s.ec
  tl : t.tl = s.tl
  bc : t.bc = s.bc
  mc : t.mc = s.mc
  pending : t.pending = s.pending
  cu : t.cu = { s.cu with given := t.cu.given }

theorem State.OnlySlots.refl (s : State) : s.OnlySlots s := ⟨rfl, rfl, rfl, rfl, rfl, rfl, rfl⟩

theorem State.OnlySlots.trans {s t u : State} (h : s.OnlySlots t) (h' : t.OnlySlots u) :
    s.OnlySlots u :=
  ⟨h'.bi.trans h.bi, h'.ec.trans h.ec, h'.tl.trans h.tl, h'.bc.trans h.bc, h'.mc.trans h.mc,
    h'.pending.trans h.pending, by rw [h'.cu, h.cu]⟩

theorem State.OnlySlots.freeSlot (s : State) (k : SlotId) : s.OnlySlots (s.freeSlot k) :=
  ⟨rfl, rfl, rfl, rfl, rfl, rfl, rfl⟩

theorem State.OnlySlots.discardSlot (s : State) (k : SlotId) : s.OnlySlots (s.discardSlot k) :=
  ⟨rfl, rfl, rfl, rfl, rfl, rfl, rfl⟩

theorem State.slot_discardSlot_self (s : State) (k : SlotId) :
    (s.discardSlot k).slot k = { s.slot k with discarded := true } :=
  State.slot_setSlot_self s k _

theorem State.slot_discardSlot_of_ne (s : State) {j k : SlotId} (other : j ≠ k) :
    (s.discardSlot k).slot j = s.slot j :=
  State.slot_setSlot_of_ne s _ other

/-- ABANDON leaves a slot, makes it FREE, or marks it. -/
theorem State.abandonSlot_eq (s : State) (k : SlotId) :
    let x := (s.slot k).abandoned (s.outstanding (· == .recordRead k))
      (s.outstanding (· == .resultWrite k))
    (s.abandonSlot k = s ∧ x = s.slot k) ∨ (s.abandonSlot k = s.freeSlot k ∧ x = .empty)
      ∨ (s.abandonSlot k = s.discardSlot k ∧ x = { s.slot k with discarded := true }) := by
  intro x
  have value : x = (s.slot k).abandoned (s.outstanding (· == .recordRead k))
    (s.outstanding (· == .resultWrite k)) := rfl
  clear_value x
  cases state : (s.slot k).state
  all_goals simp only [Slot.abandoned, state] at value
  case free | visiting | awaitingWrite => exact .inl ⟨by simp only [State.abandonSlot, state],
    value⟩
  case waitingKey | held | finished =>
    exact .inr (.inl ⟨by simp only [State.abandonSlot, state], value⟩)
  case fetching =>
    cases reads : s.outstanding (· == .recordRead k)
    · exact .inr (.inl ⟨by simp [State.abandonSlot, state, reads], by simpa [reads] using value⟩)
    · exact .inr (.inr ⟨by simp [State.abandonSlot, state, reads], by simpa [reads, state] using
        value⟩)
  case loading =>
    by_cases busy : (s.slot k).transfer = .outstanding
    · exact .inr (.inr ⟨by simp [State.abandonSlot, state, busy], by simpa [busy, state] using
        value⟩)
    · exact .inr (.inl ⟨by simp [State.abandonSlot, state, busy], by simpa [busy] using value⟩)
  case storing =>
    by_cases busy : (s.slot k).transfer = .outstanding
    · exact .inl ⟨by simp [State.abandonSlot, state, busy], by simpa [busy] using value⟩
    · exact .inr (.inl ⟨by simp [State.abandonSlot, state, busy], by simpa [busy] using value⟩)
  case reporting =>
    cases reports : s.outstanding (· == .resultWrite k)
    · exact .inr (.inl ⟨by simp [State.abandonSlot, state, reports], by simpa [reports] using
        value⟩)
    · exact .inl ⟨by simp [State.abandonSlot, state, reports], by simpa [reports] using value⟩

/-- The effect of ABANDON on one slot. -/
theorem State.abandonSlot_frame (s : State) (k : SlotId) : s.OnlySlots (s.abandonSlot k)
    ∧ (s.abandonSlot k).slot k = (s.slot k).abandoned (s.outstanding (· == .recordRead k))
      (s.outstanding (· == .resultWrite k))
    ∧ s.onlySlot (s.abandonSlot k) k := by
  obtain ⟨h, x⟩ | ⟨h, x⟩ | ⟨h, x⟩ := s.abandonSlot_eq k
  · rw [h, x]
    exact ⟨State.OnlySlots.refl s, rfl, fun _ _ => rfl⟩
  · rw [h, x]
    exact ⟨State.OnlySlots.freeSlot s k, State.slot_freeSlot_self s k,
      fun j other => State.slot_freeSlot_of_ne s k other⟩
  · rw [h, x]
    exact ⟨State.OnlySlots.discardSlot s k, State.slot_discardSlot_self s k,
      fun j other => State.slot_discardSlot_of_ne s other⟩

theorem State.foldl_abandonSlot (l : List SlotId) (nodup : l.Nodup) (s : State) :
    s.OnlySlots (l.foldl State.abandonSlot s)
      ∧ (∀ k ∈ l, (l.foldl State.abandonSlot s).slot k = (s.slot k).abandoned
        (s.outstanding (· == .recordRead k)) (s.outstanding (· == .resultWrite k)))
      ∧ ∀ k, k ∉ l → (l.foldl State.abandonSlot s).slot k = s.slot k := by
  induction l generalizing s with
  | nil => exact ⟨State.OnlySlots.refl s, fun k mem => (by cases mem), fun _ _ => rfl⟩
  | cons j l ih =>
    obtain ⟨fresh, nodup'⟩ := List.nodup_cons.mp nodup
    obtain ⟨only, slots, others⟩ := ih nodup' (s.abandonSlot j)
    obtain ⟨only', self, still⟩ := s.abandonSlot_frame j
    have bus : ∀ p, (s.abandonSlot j).outstanding p = s.outstanding p := fun p => by
      rw [State.outstanding, only'.bi]
      rfl
    refine ⟨only'.trans only, fun k mem => ?_, fun k out => ?_⟩
    · by_cases same : k = j
      · rw [same]
        exact (others j fresh).trans self
      · have later := slots k ((List.mem_cons.mp mem).resolve_left same)
        rw [bus, bus, still k same] at later
        exact later
    · obtain ⟨other, rest⟩ := not_or.mp (mt List.mem_cons.mpr out)
      exact (others k rest).trans (still k other)

/-- The Request Table's part of ABANDON (R91). -/
theorem State.abandonTable_frame (s : State) : s.OnlySlots s.abandonTable
    ∧ s.abandonTable.rt.hold = none ∧ s.abandonTable.rt.faulted = [] ∧
      s.abandonTable.rt.unreported = []
    ∧ ∀ k, s.abandonTable.slot k = (s.slot k).abandoned (s.outstanding (· == .recordRead k))
      (s.outstanding (· == .resultWrite k)) := by
  obtain ⟨only, slots, -⟩ := State.foldl_abandonSlot allSlots (List.nodup_finRange 64) s
  have every := fun k => slots k (List.mem_finRange k)
  rw [State.abandonTable]
  generalize allSlots.foldl State.abandonSlot s = u at *
  exact ⟨⟨only.bi, only.ec, only.tl, only.bc, only.mc, only.pending, only.cu⟩, rfl, rfl, rfl, every⟩

/-! ## The engine and the Chain Unit (R110, R162) -/

/-- The stall's causes cleared, before STOPPING begins (R162). -/
def State.causesCleared (s : State) : State :=
  { s with ec := { s.ec with
    stallHostFault := false, stallBadBatch := false
    status := { s.ec.status with stallReportIssued := false } } }

/-- The state in which ABANDON has reached the engine and the Chain Unit. -/
def State.abandonBegun (s : State) : State := (s.causesCleared.enterStopping .abandon).abandonChain

theorem State.abandonBegun_frame (s : State) : s.abandonBegun.bi = s.bi ∧
    s.sameTablePath s.abandonBegun
    ∧ s.abandonBegun.pending = s.pending
    ∧ s.abandonBegun.cu = { s.cu with
      phase := .ended, nudgePending := false, faulted := [], badBatch := false
      releasesWaiting := [], parked := false }
    ∧ s.abandonBegun.ec = { s.ec with
      engine := .stopping, ending := .abandon, stallHostFault := false, stallBadBatch := false
      tableEmpty := false, chainClosed := false, status := s.abandonBegun.ec.status } := by
  obtain ⟨bi, cu, path, pending⟩ := s.causesCleared.enterStopping_blocks .abandon
  have ec := s.causesCleared.enterStopping_ec .abandon
  rw [State.abandonBegun]
  generalize s.causesCleared.enterStopping .abandon = u at *
  have path' : u.sameTablePath u.unpark := by simp [State.sameTablePath]
  have path'' : s.sameTablePath u := path
  refine ⟨(State.unpark_bi u).trans bi, ?_, (State.unpark_pending u).trans pending, ?_, ?_⟩
  · obtain ⟨rt, tl, bc, mc⟩ := path'
    obtain ⟨rt', tl', bc', mc'⟩ := path''
    exact ⟨rt.trans rt', tl.trans tl', bc.trans bc', mc.trans mc'⟩
  · rw [State.abandonChain, State.unpark_cu_eq, cu]
    rfl
  · refine (u.unpark_ec_eq).trans ?_
    rw [ec]
    rfl

theorem State.unpark_status (s : State) :
    s.unpark.ec.status.waitingCauses = s.ec.status.waitingCauses
      ∧ s.unpark.ec.status.attachedCauses = s.ec.status.attachedCauses
      ∧ s.unpark.ec.status.outstanding = s.ec.status.outstanding
      ∧ (s.cu.parked = false → s.unpark.ec.status = s.ec.status) := by
  unfold State.unpark
  split
  case isTrue parked => exact ⟨by simp, by simp, by simp, fun h => absurd h (by simp [parked])⟩
  case isFalse => exact ⟨rfl, rfl, rfl, fun _ => rfl⟩

/-- What ABANDON leaves of the status update: no cause more, and a change owed, if an address is
known, unless the engine is STOPPING already and nothing parks (R162, R169). -/
theorem State.abandonBegun_status (s : State) :
    s.abandonBegun.ec.status.waitingCauses = s.ec.status.waitingCauses
      ∧ s.abandonBegun.ec.status.attachedCauses = s.ec.status.attachedCauses
      ∧ s.abandonBegun.ec.status.outstanding = s.ec.status.outstanding
      ∧ (s.ec.engine = .stopping → s.cu.parked = false →
        s.abandonBegun.ec.status = { s.ec.status with stallReportIssued := false }) := by
  rw [State.abandonBegun, State.enterStopping_eq]
  split
  case isTrue stopping =>
    obtain ⟨waiting, attached, outstanding, quiet⟩ :=
        (s.causesCleared.stoppingAs .abandon).unpark_status
    exact ⟨waiting, attached, outstanding, fun _ unparked => quiet unparked⟩
  case isFalse other =>
    obtain ⟨waiting, attached, outstanding, -⟩ :=
      (s.causesCleared.stoppingAs .abandon).statusUpdate.unpark_status
    rw [State.statusUpdate_waitingCauses] at waiting
    rw [State.statusUpdate_attachedCauses] at attached
    rw [State.statusUpdate_outstanding] at outstanding
    exact ⟨waiting, attached, outstanding, fun stopping => absurd (beq_iff_eq.mpr stopping) other⟩

theorem State.abandon_eq {s : State} (h : s.ec.engine = .running ∨ s.ec.engine = .stalled
    ∨ (s.ec.engine = .stopping ∧ s.ec.ending = .stop)) :
    s.abandon = s.abandonBegun.abandonTable.settleStop := by
  have begun : s.enterAbandon.abandonChain = s.abandonBegun := rfl
  rw [← begun]
  rcases h with engine | engine | ⟨engine, ending⟩
  · simp only [State.abandon, engine]
  · simp only [State.abandon, engine]
  · simp [State.abandon, engine, ending]

end Sys2Proof.Machine
end


section
/-! ABANDON (R91, R110, R162): the statement. -/

namespace Sys2Proof.Machine

/-- A cause is raised between two states whose status updates hold the same causes. -/
theorem State.raisesCause.of_same {s u t : State} {cause : BitVec 5} (h : u.raisesCause t cause)
    (addr : u.ec.statusAddr = s.ec.statusAddr) (set : u.ec.intCause = s.ec.intCause)
    (waiting : u.ec.status.waitingCauses = s.ec.status.waitingCauses)
    (attached : u.ec.status.attachedCauses = s.ec.status.attachedCauses)
    (outstanding : u.ec.status.outstanding = s.ec.status.outstanding) : s.raisesCause t cause := by
  have both := h.after (c := 0#5) addr (fun _ => by rw [set, BitVec.or_zero])
    (fun _ => ⟨set, by rw [waiting, BitVec.or_zero]⟩) attached outstanding
  rwa [BitVec.zero_or] at both

theorem State.statusDue_eq_false_of {s t : State} (law : s.statusLaw)
    (running : s.ec.engine ≠ .stalled)
    (owed : t.ec.status.owed = s.ec.status.owed) (addr : t.ec.statusAddr = s.ec.statusAddr)
    (outstanding : t.ec.status.outstanding = s.ec.status.outstanding) : t.statusDue = false := by
  have unstalled : (s.ec.engine == .stalled) = false := beq_eq_false_iff_ne.mpr running
  have none : (s.ec.status.owed == .now && s.ec.statusAddr.isSome && s.ec.status.outstanding.isNone)
      = false := by
    simpa [State.statusLaw, State.statusDue, unstalled] using law
  rw [State.statusDue, owed, addr, outstanding, none, Bool.false_and]

/-- What the waiting chain of an ABANDON leaves of the bus. -/
theorem State.settleStop_bi_of_abandoning {u : State} (stopping : u.ec.engine = .stopping)
    (abandon : u.ec.ending = .abandon) : u.settleStop.bi = u.bi := by
  have settled := State.settleStop_of_abandoning stopping abandon
  rw [settled, State.completeStop_bi]

/-- What a slot's states say of what ABANDON leaves (R91). -/
theorem Slot.abandoned_table (x : Slot) (reads reports : Bool) :
    ((x.state = .waitingKey ∨ x.state = .held ∨ x.state = .finished) →
        x.abandoned reads reports = Slot.empty)
      ∧ ((x.state = .visiting ∨ x.state = .awaitingWrite) → x.abandoned reads reports = x)
      ∧ (x.state = .fetching → x.abandoned reads reports =
        if reads then { x with discarded := true } else Slot.empty)
      ∧ (x.state = .loading → x.abandoned reads reports =
        if x.transfer = .outstanding then { x with discarded := true } else Slot.empty)
      ∧ (x.state = .storing → x.abandoned reads reports =
        if x.transfer = .outstanding then x else Slot.empty)
      ∧ (x.state = .reporting → x.abandoned reads reports = if reports then x else Slot.empty) := by
  refine ⟨?_, ?_, ?_, ?_, ?_, ?_⟩
  · rintro (h | h | h) <;> simp only [Slot.abandoned, h]
  · rintro (h | h) <;> simp only [Slot.abandoned, h]
  all_goals
    intro h
    simp only [Slot.abandoned, h]

/-- Settles O11: the effect on the blocks first, then the drain. -/
theorem abandonDiscardsWhatIsNotDispatched : Obligations.AbandonDiscardsWhatIsNotDispatched := by
  refine ⟨fun s legal => ?begins, fun s stopping abandon law => ?again⟩
  case again =>
    have nothing : s.abandon = s := by simp [State.abandon, stopping, abandon]
    exact (next_closeEvent nothing).trans
      (congrArg Host.Outcome.next (State.closeEvent_of_ec law rfl rfl rfl))
  case begins =>
    have event : exec .abandon s = .next s.abandonBegun.abandonTable.settleStop.closeEvent :=
      next_closeEvent (State.abandon_eq legal)
    obtain ⟨bi, ⟨rt, tl, bc, mc⟩, pending, cu, ec⟩ := s.abandonBegun_frame
    obtain ⟨waiting, attached, outstanding, kept⟩ := s.abandonBegun_status
    obtain ⟨⟨bi', ec', tl', bc', mc', pending', cu'⟩, hold, faulted, unreported, slots⟩ :=
      s.abandonBegun.abandonTable_frame
    have slot : ∀ k, s.abandonBegun.slot k = s.slot k := State.slot_of_rt rt
    have bus : ∀ p, s.abandonBegun.outstanding p = s.outstanding p := fun p => by
      rw [State.outstanding, bi]
      rfl
    simp only [bus, slot] at slots
    rw [bi] at bi'
    rw [cu] at cu'
    rw [← ec'] at waiting attached outstanding kept
    rw [← ec'] at ec
    generalize s.abandonBegun.abandonTable = u at *
    have stops : u.ec.engine = .stopping := by rw [ec]
    have ending : u.ec.ending = .abandon := by rw [ec]
    have unclosed : u.ec.chainClosed = false := by rw [ec]
    have phase : u.cu.phase = .ended := by rw [cu']
    have quiet : u.outstanding AccessKind.ofChain = s.outstanding AccessKind.ofChain := by
      rw [State.outstanding, bi']
      rfl
    have window := (State.drainsAbandoned_settleStop stops ending).intMask
    have drains := State.drainsAbandoned_settleStop stops ending
    have waits := State.settleStop_of_waiting stops ending
    have bus' := State.settleStop_bi_of_abandoning stops ending
    simp only [State.drainsAbandoned, phase, quiet, unclosed, beq_self_eq_true, Bool.true_and,
      Bool.or_false] at drains waits
    obtain ⟨rt'', tl'', bc'', mc'', pending'', setupL, setupH, keeps, adds, chain, both, either⟩ :=
        drains
    have all : u.settleStop.closeEvent.allFree = u.allFree := by
      rw [State.allFree, State.allFree]
      simp only [State.slot_of_rt rt'']
    have given : u.settleStop.closeEvent.cu.given = u.cu.given := by
      rw [chain]
      split <;> rfl
    refine ⟨_, event, ⟨setupL.trans (by rw [bi']), setupH.trans (by rw [bi']),
      window.trans (by rw [ec]),
      pending''.trans (pending'.trans pending)⟩, ?_, fun x mem fresh => .inl (adds x mem ?_),
      by rw [rt'', hold], by rw [rt'', faulted], by rw [rt'', unreported], fun k => ?_,
      tl''.trans (tl'.trans tl), bc''.trans (bc'.trans bc), mc''.trans (mc'.trans mc),
      fun busy => ?_,
      fun idle => ?_⟩
    · rw [bi'] at keeps
      exact keeps
    · rwa [bi']
    · rw [State.slot_of_rt rt'', slots]
      exact Slot.abandoned_table _ _ _
    · rw [busy] at waits chain either
      rw [all]
      refine ⟨?_, ?_, fun stopping unparked law => ?_⟩
      · rw [either rfl, ec]
        rfl
      · rw [given, chain]
        exact cu'
      · obtain ⟨engine, addr, -, status⟩ := waits rfl
        have same := kept stopping unparked
        have still : u.settleStop.closeEvent = u.settleStop := State.closeEvent_eq_self
          (State.statusDue_eq_false_of law (by simp [stopping]) (by rw [status, same])
            (by rw [addr, ec]) (by rw [status, same]))
        rw [still, bus', bi', status, same]
        exact ⟨rfl, rfl⟩
    · rw [idle] at chain both either
      rw [all, given]
      refine ⟨?_, fun held => ?_, fun free => ?_⟩
      · rw [chain]
        simp only [Bool.not_false, if_true]
        rw [cu']
      · rw [held] at either
        rw [either rfl, ec]
        rfl
      · rw [free] at both
        obtain ⟨raises, engine⟩ := both rfl
        refine ⟨raises.of_same (by rw [ec]) (by rw [ec]) waiting attached outstanding, ?_⟩
        exact engine.trans (by rw [ec])

end Sys2Proof.Machine
end


section
/-! RESET (R63, R92, R111, R132, R151, R156, R165). -/

namespace Sys2Proof.Machine

/-! ## What is lost (R63, R132, R165) -/

theorem Line.unwritten_iff (l : Line) : l.unwritten = true ↔
    l.state = .dirty ∨ l.state = .writing ∨ l.state = .rewrite := by
  simp [Line.unwritten, or_assoc]

theorem State.cacheLoses_iff (s : State) : s.cacheLoses = true ↔
    ∃ (i : SetId) (w : Way), (s.line i w).state = .dirty ∨ (s.line i w).state = .writing
      ∨ (s.line i w).state = .rewrite := by
  simp only [State.cacheLoses, Vector.any_eq_true, Line.unwritten_iff]
  constructor
  · rintro ⟨i, hi, w, hw, lost⟩
    exact ⟨⟨i, hi⟩, ⟨w, hw⟩, lost⟩
  · rintro ⟨i, w, lost⟩
    exact ⟨i, i.isLt, w, w.isLt, lost⟩

theorem State.controllerLoses_iff (s : State) : s.controllerLoses = true ↔
    (∃ u ∈ s.mc.waits, u.direction.isWrite = true)
      ∨ ∃ (b : BankId), ∃ a ∈ (s.bank b).queue, a.issued = false
        ∧ a.body.direction.isWrite = true := by
  simp [State.controllerLoses, Bank.unissued, mem_allBanks]

/-! ## The Memory Controller at RESET (R132, R151) -/

/-- The Memory Controller's part, whether or not bring-up stops. -/
theorem MemoryController.engineReset_eq (m : MemoryController) (probing : Bool) :
    m.engineReset probing = { m with
      banks := m.banks.map Bank.keepIssued, waits := [], accepting := false
      profile := if probing then none else m.profile
      laneFaults := if probing then 0 else m.laneFaults
      sequencer := if probing then .idle else m.sequencer
      resetHeld := if probing then false else m.resetHeld
      reads := if probing then m.reads.map OutstandingRead.abandoned else m.reads } := by
  cases probing <;> rfl

theorem Bank.keepIssued_queue_eq_nil_iff (x : Bank) :
    x.keepIssued.queue = [] ↔ ∀ a ∈ x.queue, a.issued = false := by
  simp [Bank.keepIssued]

/-- With no access waiting and no sweep the controller may only become open again (R132). -/
theorem State.resumeAccepting_of_empty {s : State} (waits : s.mc.waits = [])
    (sweep : s.ec.sweep.phase = .idle) (shut : s.mc.accepting = false) :
    s.resumeAccepting = { s with mc := { s.mc with accepting := s.drained } } := by
  cases drained : s.drained
  · rw [State.resumeAccepting, shut, drained, if_neg (by simp), ← shut]
  · have idle : ({ s with mc := { s.mc with accepting := true, waits := [] } } :
        State).ec.sweep.phase ≠ .writing := by simp [sweep]
    rw [State.resumeAccepting, shut, drained, if_pos (by simp), waits, List.foldl_nil,
      State.continueSweep_of_idle idle, ← waits]

/-! ## The blocks at RESET (R165) -/

/-- The state in which every block has been reset, before the controller looks whether its drain has
ended. -/
def State.wiped (s : State) : State :=
  { s with
    bi := { s.bi with accesses := s.bi.accesses.map fun a => { a with live := false } }
    ec := s.ec.engineReset (s.cacheLoses || s.controllerLoses)
    cu := { ChainUnit.reset with chainStart := s.cu.chainStart }
    rt := .reset
    bc := { s.bc with sets := Vector.replicate 128 CacheSet.empty, flush := none }
    mc := s.mc.engineReset (s.ec.engine == .probing) }

/-- The state after RESET, before its status write. -/
def State.resetDone (s : State) : State :=
  { s.wiped with mc := { s.wiped.mc with accepting := s.wiped.drained } }

theorem State.engineReset_eq (s : State) : s.engineReset = s.resetDone :=
  State.resumeAccepting_of_empty (s := s.wiped)
    (by change (s.mc.engineReset _).waits = []; rw [MemoryController.engineReset_eq]) rfl
    (by change (s.mc.engineReset _).accepting = false; rw [MemoryController.engineReset_eq])

theorem State.bank_wiped (s : State) (b : BankId) : s.wiped.bank b = (s.bank b).keepIssued := by
  change (s.mc.engineReset _).banks[b] = _
  rw [MemoryController.engineReset_eq]
  exact Vector.getElem_map Bank.keepIssued b.isLt

theorem State.drained_wiped (s : State) : s.wiped.drained = true ↔ ∀ b : BankId,
    ((s.bank b).state = .closed ∨ (s.bank b).state = .refreshing)
      ∧ ∀ a ∈ (s.bank b).queue, a.issued = false := by
  rw [State.drained_iff]
  refine forall_congr' fun b => ?_
  rw [State.bank_wiped, Bank.keepIssued_queue_eq_nil_iff]
  rfl

/-- The identity after RESET (R165). -/
theorem EngineControl.engineReset_identity (e : EngineControl) {lost : Bool} {p : Prop}
    [Decidable p]
    (h : lost = true ↔ p) : (e.engineReset lost).identity = if p then none else e.identity := by
  cases lost
  · rw [if_neg (mt h.mpr Bool.false_ne_true)]
    rfl
  · rw [if_pos (h.mp rfl)]
    rfl

theorem EngineState.afterReset_of_serving {e : EngineState}
    (h : e = .ready ∨ e = .clearing ∨ e.serving = true) : e.afterReset = .ready := by
  cases e <;> simp_all [EngineState.afterReset, EngineState.serving]

theorem State.resetDone_mc (s : State) : s.resetDone.mc = { s.mc with
    banks := s.mc.banks.map Bank.keepIssued, waits := [], accepting := s.wiped.drained
    profile := if s.ec.engine = .probing then none else s.mc.profile
    laneFaults := if s.ec.engine = .probing then 0 else s.mc.laneFaults
    sequencer := if s.ec.engine = .probing then .idle else s.mc.sequencer
    resetHeld := if s.ec.engine = .probing then false else s.mc.resetHeld
    reads := if s.ec.engine = .probing then s.mc.reads.map OutstandingRead.abandoned
      else s.mc.reads } := by
  have mc : s.resetDone.mc = { s.mc.engineReset (s.ec.engine == .probing) with
    accepting := s.wiped.drained } := rfl
  rw [mc, MemoryController.engineReset_eq]
  simp only [beq_iff_eq]

/-- The Engine Control after RESET, at the end of the event (R165). -/
theorem State.resetDone_closeEvent_ec (s : State) : s.resetDone.closeEvent.ec =
    { EngineControl.reset with
    engine := s.resetDone.closeEvent.ec.engine, identity := s.resetDone.closeEvent.ec.identity
    failureCause := s.ec.failureCause, statusAddr := s.ec.statusAddr, parkEnable := s.ec.parkEnable
    intMask := s.ec.intMask, status := s.resetDone.closeEvent.ec.status } := by
  have ec : s.resetDone.ec = s.ec.engineReset (s.cacheLoses || s.controllerLoses) := rfl
  apply EngineControl.ext <;> simp [ec, EngineControl.engineReset]

theorem State.loses_iff (s : State) : (s.cacheLoses || s.controllerLoses) = true ↔
    (∃ (i : SetId) (w : Way), (s.line i w).state = .dirty ∨ (s.line i w).state = .writing
        ∨ (s.line i w).state = .rewrite)
      ∨ (∃ u ∈ s.mc.waits, u.direction.isWrite = true)
      ∨ ∃ (b : BankId), ∃ a ∈ (s.bank b).queue, a.issued = false
        ∧ a.body.direction.isWrite = true := by
  rw [Bool.or_eq_true, State.cacheLoses_iff, State.controllerLoses_iff]

/-- After RESET no issuer acts on the end of an access but that of the status write (R92, R111). -/
theorem State.resetDone_live {s : State} {a : BusAccess}
    (mem : a ∈ s.resetDone.closeEvent.bi.accesses)
    (live : a.live = true) : a.kind = .statusWrite := by
  by_cases old : a ∈ s.resetDone.bi.accesses
  · obtain ⟨b, -, rfl⟩ := List.mem_map.mp old
    cases live
  · exact State.closeEvent_adds mem old

/-- Settles O5, block by block. -/
theorem engineResetActsInAnyState : Obligations.EngineResetActsInAnyState := by
  intro s
  have event : exec .reset s = .next s.engineReset.closeEvent := next_closeEvent rfl
  rw [State.engineReset_eq] at event
  have engine : s.resetDone.closeEvent.ec.engine = s.ec.engine.afterReset :=
    State.closeEvent_ec_engine _
  have mc : s.resetDone.closeEvent.mc = _ := (State.closeEvent_mc _).trans s.resetDone_mc
  refine ⟨_, event, fun h => ?_, fun h => ?_, fun h => ?_, ?_, s.resetDone_closeEvent_ec,
    State.closeEvent_setupL _, State.closeEvent_setupH _, State.closeEvent_pending _, fun i => ?_,
    ?_, ?_, ?_,
    ?_, State.closeEvent_tl _, fun k => ?_, ?_, ?_, State.closeEvent_cu _,
    fun a mem live => State.resetDone_live mem live, fun b => ?_, ?_, ?_, ?_, ?_, ?_, ?_, fun h =>
    ?_, ?_,
    ?_, ?_, ?_, ?_, ?_, ?_⟩
  · rcases h with h | h <;> rw [engine, h] <;> rfl
  · rw [engine, h]
    rfl
  · rw [engine, EngineState.afterReset_of_serving h]
  · exact (State.closeEvent_ec_identity _).trans (EngineControl.engineReset_identity s.ec
      s.loses_iff)
  · rw [State.cacheSet, State.closeEvent_bc]
    exact Vector.getElem_replicate i.isLt
  · rw [State.closeEvent_bc]
    rfl
  · rw [State.closeEvent_bc]
    rfl
  · rw [State.closeEvent_bc]
    rfl
  · rw [State.closeEvent_bc]
    rfl
  · rw [State.slot, State.closeEvent_rt]
    exact Vector.getElem_replicate k.isLt
  · rw [State.closeEvent_rt]
    rfl
  · rw [State.closeEvent_rt]
    rfl
  · rw [State.bank, mc]
    exact Vector.getElem_map Bank.keepIssued b.isLt
  · rw [mc]
    exact s.drained_wiped
  · rw [mc]
    change (if _ then _ else _ : List OutstandingRead).length = _
    split
    · exact List.length_map _
    · rfl
  all_goals rw [mc]
  exact ⟨if_pos h, if_pos h⟩

end Sys2Proof.Machine
end


section
/-! RESUME (R80, R89, R108): a slot that is FREE and still in the age list. -/

namespace Sys2Proof.Machine

/-- A stalled state in phase RECORDS with one record left, whose one slot in the age list is FREE
and yet has a transfer that waits. -/
def staleSlot : State :=
  { State.reset with
    ec := { EngineControl.reset with engine := .stalled }
    cu := { ChainUnit.reset with
      phase := .records, current := some 4096, batches := [⟨4096, 1, false, 0, 0, false⟩] }
    rt := { RequestTable.reset with
      slots := RequestTable.reset.slots.set 0
        { Slot.empty with transfer := .waiting, request := some ⟨.lookup, 0, 0⟩ }
      age := [0] } }

/-- RESUME gives the FREE slot to the record (R80) before it issues the transfers that wait (R89).
-/
theorem staleSlot_resume : (staleSlot.resume.slot 0).transfer = .none := by
  decide

/-- Refutes O10: its last clause asks that every waiting transfer of a slot in the age list is
issued, and does not ask that the slot is not FREE. RESUME gives such a slot to the next record of
the current batch, which ends the transfer. -/
theorem not_resumeReissuesFaultedAccesses : ¬ Obligations.ResumeReissuesFaultedAccesses := by
  rintro ⟨-, steps⟩
  obtain ⟨t, event, -, -, -, -, -, -, -, transfers⟩ := steps staleSlot rfl rfl rfl
    (fun k mem => by cases mem)
  have resumed : exec .resume staleSlot = .next staleSlot.resume.closeEvent := next_closeEvent rfl
  obtain rfl : staleSlot.resume.closeEvent = t := Host.Outcome.next.inj (resumed.symm.trans event)
  obtain ⟨issued, -⟩ := transfers 0 (List.mem_singleton.mpr rfl) ⟨.lookup, 0, 0⟩ rfl rfl
    (fun mem => by cases mem) (fun a mem => by cases mem)
  rw [State.slot_of_rt (State.closeEvent_rt _), staleSlot_resume] at issued
  cases issued

end Sys2Proof.Machine
end
